-- ==== Sys2Proof/Word.lean ====
section
/-!
DEFINITION. The word types of the block: bytes on the wire, 16-bit length fields, 32-bit host
registers (spec/00_scope.md R13, spec/10_state.md R22).
-/

namespace Sys2Proof

/-- A byte: 8 bits, unsigned (R13). -/
abbrev Byte := BitVec 8

/-- A 16-bit length field, and the width of `chunk_len` (R14, R38). -/
abbrev Half := BitVec 16

/-- A 32-bit host register or address field (R14, R22). -/
abbrev Word := BitVec 32

end Sys2Proof
end

