-- ==== Sys2Proof/Config.lean ====
section
/-!
DEFINITION. What is fixed for the block and never changes: the parameters the source fixes (R7), the
parameters it leaves open (R8), and the draws of the other agents (R10, R11, I13 to I15).
The open parameters and the free draws are opaque constants with no body: no proof can learn a value.
-/

namespace Sys2Proof.Config

/-! ## Parameters fixed by the source (spec/00_scope.md R7) -/

/-- CAPACITY: 16384 bytes of flash (R7). -/
abbrev capacity : Nat := 0x4000

/-- CHUNK_MAX: 512 bytes (R7). -/
abbrev chunkMax : Nat := 0x200

/-- CMD_HDR_LEN and RSP_READ_HDR_LEN: the eight bytes before a payload or trailer (R7). -/
abbrev hdrLen : Nat := 8

/-- RSP_ACK9_LEN and CMD9_LEN: a frame without payload (R7). -/
abbrev ack9Len : Nat := 9

/-- TRAINING_LEN: 96 bytes (R7). -/
abbrev trainingLen : Nat := 96

/-- EXEC_COUNT: 11 bytes (R7). -/
abbrev execCount : Nat := 11

/-- The largest frame, 8 + 0x200 + 1 bytes, which is the capacity of each frame buffer (R9, R44). -/
abbrev bufLen : Nat := 521

/-- HS_ACK: the handshake answer 0x11 (R7, R98). -/
abbrev hsAckByte : Byte := 0x11

/-- GEN_ACK: the generic success answer 0x01 (R7, R99). -/
abbrev genAckByte : Byte := 0x01

/-- STATUS_OK: the only status byte that is not a failure (R7, R105). -/
abbrev statusOk : Byte := 0x00

/-- BAUD: the line speed the transport is opened with (R7, R85). -/
abbrev baud : Nat := 9600

/-- UART_DATA_BITS: each character carries one byte (R8, R85). -/
abbrev uartDataBits : Nat := 8

/-- PARITY (R7, R85): the source fixes "none". -/
inductive Parity where
  | none
deriving DecidableEq, Repr, Inhabited

/-- The parity the transport is opened with (R7, R85). -/
abbrev parity : Parity := Parity.none

/-! ## Parameters the source leaves open (spec/00_scope.md R8) -/

/-- UART_STOP_BITS: 1 or 2 (R8, R85). -/
inductive StopBits where
  | one
  | two
deriving DecidableEq, Repr, Inhabited

/-- The open parameters of R8, before any check. Every timeout and delay is a number of ticks (R12). -/
structure Raw where
  /-- MARKER: byte 0 of every command and response frame. -/
  marker : Byte
  subopRead : Byte
  subopWrite : Byte
  subopEraseAll : Byte
  subopEraseSector : Byte
  /-- ANNOUNCE_CMD, an opaque byte string (R100). -/
  announce : List Byte
  /-- LOADER_BIN, an opaque byte string (R100). -/
  loader : List Byte
  /-- EXECUTE_CMD, an opaque byte string (R100). -/
  execute : List Byte
  tHsAck : Nat
  tAnnounce : Nat
  tUpload : Nat
  tExec : Nat
  tFrameRead : Nat
  tFrameWrite : Nat
  tFrameErase : Nat
  tHsSettle : Nat
  tPreUpload : Nat
  tPreExec : Nat
  tFinal : Nat
  tChunkSettle : Nat
  /-- TICK_PERIOD: the duration of one tick. No rule of the untimed model reads it (R288). -/
  tickPeriod : Nat
  stopBits : StopBits
deriving DecidableEq, Repr

/-- What R103 and R273 ask of a configuration: the four sub-op codes pairwise distinct, and no asset
empty. -/
def Raw.valid (r : Raw) : Bool :=
  (r.subopRead != r.subopWrite) && (r.subopRead != r.subopEraseAll) &&
  (r.subopRead != r.subopEraseSector) && (r.subopWrite != r.subopEraseAll) &&
  (r.subopWrite != r.subopEraseSector) && (r.subopEraseAll != r.subopEraseSector) &&
  !r.announce.isEmpty && !r.loader.isEmpty && !r.execute.isEmpty

/-- A configuration that R103 and R273 accept: the open parameters with the proof that they pass.
The value after `:=` only shows that such a configuration exists; nothing takes it as a default. -/
structure Params where
  raw : Raw := ⟨0, 0, 1, 2, 3, [0], [0], [0], 0, 0, 0, 0, 0, 0, 0, 0, 0, 0, 0, 0, 0, .one⟩
  ok : raw.valid = true := by decide
deriving DecidableEq, Repr, Inhabited

/-- A configuration that breaks R103 or R273 is refused: there is no `Params` for it. -/
def Params.ofRaw? (r : Raw) : Option Params :=
  if h : r.valid = true then some ⟨r, h⟩ else none

/-- The configuration of the machine after `State.reset`: every parameter of R8, none of them known. -/
opaque params : Params

/-! ## The draws of the other agents (spec/00_scope.md R10, spec/93_implementation_defined.md I13 to I15) -/

/-- The Transport's answer to a `TxWrite`: a count of accepted bytes, or an error (R132). -/
inductive TxAns where
  | count (c : Nat)
  | err
deriving DecidableEq, Repr, Inhabited

/-- The Transport's answer to a `Poll`: the head of the receive queue, no data, or an error (R133). -/
inductive PollAns where
  | byte
  | noData
  | err
deriving DecidableEq, Repr, Inhabited

/-- The Host's answer to a `SrcRead`: the next image byte, End, or an error (R138). -/
inductive SrcAns where
  | byte (b : Byte)
  | finished
  | err
deriving DecidableEq, Repr, Inhabited

/-- The answers the Transport and the image stream hold ready for one engine step. An engine step
issues at most one call (R192), so it reads at most one of them. -/
structure Answers where
  /-- `Open` answers ok (R131). -/
  openOk : Bool
  tx : TxAns
  /-- How many bytes reach the wire when `TxWrite` answers err: any number (R132, I18). -/
  wireOnErr : Nat
  poll : PollAns
  /-- `Close` answers ok; the answer is recorded and ignored (R137). -/
  closeOk : Bool
  src : SrcAns
  /-- `SinkWrite` answers ok (R139). -/
  sinkOk : Bool
  /-- What the sink keeps of a payload whose `SinkWrite` fails: any bytes (R139, I2). -/
  sinkOnErr : List Byte
deriving DecidableEq, Repr, Inhabited

/-- One move of one agent (R10). -/
inductive Turn where
  /-- The Engine takes a step; `a` is what the agents it may call would answer. -/
  | engine (a : Answers)
  /-- The Host writes register `n` (R22). -/
  | hostWrite (n : Nat) (v : Word)
  /-- The Host reads register `n` (R22, R34). -/
  | hostRead (n : Nat)
  /-- The Peer appends bytes to the receive queue, in order (R11). -/
  | peer (bs : List Byte)
  /-- The Clock advances `now` by one tick (R12, R48). -/
  | clock
  /-- The reset input `rst` (R270). -/
  | rst
deriving DecidableEq, Repr, Inhabited

/-- A sequence of moves in which the Clock is weakly fair: it ticks infinitely often (R12). The values after
`:=` only show that there is such a sequence; nothing takes them as a default. -/
structure Draws where
  move : Nat → Turn := fun _ => .clock
  fair : ∀ n, ∃ m, n ≤ m ∧ move m = .clock := by exact fun n => ⟨n, Nat.le_refl n, rfl⟩
deriving Inhabited

/-- The moves that no scheduled input decides: any sequence of any moves, but for the Clock's fairness (R12). -/
opaque draws : Draws

/-- Which agent moves next, and with what answers, is nobody's to fix (R10, R11, I13 to I15, I23): the
`k`-th move that no scheduled input decides is this free value. -/
def draw (k : Nat) : Turn := draws.move k

end Sys2Proof.Config
end

