-- ==== Sys2Proof/Syntax.lean ====
section
/-!
DEFINITION. The instructions of spec/opcode_table.json, one constructor per row, and the forms in
which the spec encodes them. The block is no processor (R2): a row is a host request, a frame or byte
on the wire, an engine primitive, a collector mode, or a stage of the sequencer.
-/

namespace Sys2Proof

/-- The four host requests (R23, R87). -/
inductive Op where
  | connectOnly
  | read
  | write
  | erase
deriving DecidableEq, Repr, Inhabited

/-- The response shapes (R18, R43). -/
inductive Shape where
  | read
  | ack9
deriving DecidableEq, Repr, Inhabited

/-- The steps of the handshake stage (R196). -/
inductive HsStep where
  | assert | powerWait | train | release | await | settle | flush
deriving DecidableEq, Repr, Inhabited

/-- The steps of the loader stage (R198). -/
inductive LdStep where
  | announceTx | announceAwait | preUpload | uploadTx | uploadAwait | preExec | execTx | execAwait
  | final
deriving DecidableEq, Repr, Inhabited

/-- The steps of a READ chunk (R201). -/
inductive RdStep where
  | next | settle | tx | await | commit
deriving DecidableEq, Repr, Inhabited

/-- The steps of a WRITE chunk (R203). -/
inductive WrStep where
  | next | src | build | settle | tx | await | commit
deriving DecidableEq, Repr, Inhabited

/-- The steps of an ERASE (R205). -/
inductive ErStep where
  | build | settle | tx | await | commit
deriving DecidableEq, Repr, Inhabited

/-- The steps of teardown (R206). -/
inductive TdStep where
  | close | stream | finish
deriving DecidableEq, Repr, Inhabited

/-- The sequencer step register's values, the analogue of a program counter (R40, R191). -/
inductive SeqStep where
  | idle
  | range
  | openPort
  | hs (h : HsStep)
  | ld (l : LdStep)
  | opDispatch
  | rd (r : RdStep)
  | wr (w : WrStep)
  | er (e : ErStep)
  | td (t : TdStep)
deriving DecidableEq, Repr, Inhabited

/-- The operand forms of WAIT(T): a parameter of R8 or `pdelay` (R141). -/
inductive WaitArg where
  | pdelay | hsSettle | preUpload | preExec | final | chunkSettle
deriving DecidableEq, Repr, Inhabited

/-- The operand forms of TXWRITE(s): the frame in `txbuf[0..txlen)`, or one of the constant tables
(R70, R132). -/
inductive TxSrc where
  | frame | training | announce | loader | execute
deriving DecidableEq, Repr, Inhabited

/-- One constructor per row of spec/opcode_table.json, in the table's order. -/
inductive Instr where
  -- host requests (R87): the operands are the request registers
  | reqConnectOnly
  | reqRead
  | reqWrite
  | reqErase
  -- command frames (R91 to R94)
  | cmdRead (a : Word) (n : Half)
  | cmdWrite (a : Word) (d : List Byte)
  | cmdEraseAll
  | cmdEraseSector (t : Word)
  -- response frames (R95, R96)
  | rspRead (echo : Word) (d : List Byte)
  | rspAck9 (r2 r3 r4 r5 r6 r7 : Byte)
  -- handshake and loader traffic (R97 to R101)
  | hsTraining
  | hsAck
  | genAck
  | execStream (bs : List Byte)
  | announceCmd
  | loaderBin
  | executeCmd
  -- checksum codec (R121 to R123)
  | checksum (bs : List Byte)
  | checksumStamp (n : Nat)
  | checksumValidate (n : Nat)
  -- collector modes (R144 to R147): the operands are the collector registers
  | awaitEq
  | awaitAck
  | awaitCount
  | awaitFrame
  -- engine calls (R131 to R141)
  | openPort
  | txwrite (src : TxSrc)
  | poll
  | flush
  | ctlAssert
  | ctlRelease
  | close
  | srcRead
  | sinkWrite
  | streamClose
  | wait (t : WaitArg)
  -- sequencer stages (R193 to R206): the operand is the stage's value of the step register
  | seqStart
  | seqRange
  | seqHandshake (h : HsStep)
  | seqLoader (l : LdStep)
  | seqDispatch
  | seqReadChunk (r : RdStep)
  | seqWriteChunk (w : WrStep)
  | seqErase (e : ErStep)
  | seqTeardown (t : TdStep)
deriving DecidableEq, Repr

/-- An engine call as the table writes it, "call <NAME>" (R16, R130 to R141). -/
inductive Call where
  | openPort | poll | flush | ctlAssert | ctlRelease | close | srcRead | sinkWrite | streamClose
  | txwrite (src : TxSrc)
  | wait (t : WaitArg)
deriving DecidableEq, Repr

/-- A checksum primitive as the table writes it (R121 to R123). -/
inductive SumForm where
  | compute (bs : List Byte)
  | stamp (n : Nat)
  | validate (n : Nat)
deriving DecidableEq, Repr

/-- A constant table of the block (R60 ASSET). -/
inductive Asset where
  | training | announce | loader | execute
deriving DecidableEq, Repr

/-- An encoded instruction: the encoding space of its table row, and what stands there. The rows with
bits or bytes are decoded from them; the calls, checksum forms and stages have no bits in the table
and stand as it writes them. -/
inductive Code where
  /-- The content of REQ_OP at START (R87). -/
  | request (w : Word)
  /-- A transmitted command frame (R91 to R94). -/
  | command (bs : List Byte)
  /-- A received frame, in the shape the collector expects (R95, R96, R102). -/
  | response (sh : Shape) (bs : List Byte)
  /-- A received single-byte answer (R98, R99). -/
  | reply (bs : List Byte)
  /-- The received execute stream (R101). -/
  | stream (bs : List Byte)
  /-- A transmitted constant table (R97, R100). -/
  | asset (k : Asset) (bs : List Byte)
  /-- The collector mode register, 3 bits (R151). -/
  | mode (c : BitVec 3)
  /-- A checksum primitive. -/
  | sum (f : SumForm)
  /-- An engine call. -/
  | call (c : Call)
  /-- The write of CTRL.START (R193). -/
  | start
  /-- A value of the step register (R191). -/
  | stage (st : SeqStep)
deriving DecidableEq, Repr

end Sys2Proof
end

