-- ==== Sys2Proof/Machine/Codec.lean ====
section
/-!
DEFINITION. Field encoders and decoders (R14, R89), the checksum (R120), the constant tables (R97,
R100) and the layout of every frame (R88 to R96).
-/

namespace Sys2Proof.Codec

/-- `le16(v) = [v[7:0], v[15:8]]` (R14). -/
def le16 (v : Half) : List Byte :=
  [v.extractLsb' 0 8, v.extractLsb' 8 8]

/-- `le32(v)`, low byte first (R14). -/
def le32 (v : Word) : List Byte :=
  [v.extractLsb' 0 8, v.extractLsb' 8 8, v.extractLsb' 16 8, v.extractLsb' 24 8]

/-- `rd16`: the 16-bit field whose low byte comes first (R14, R89). -/
def rd16 (b0 b1 : Byte) : Half := b1 ++ b0

/-- `rd32`: the 32-bit field whose low byte comes first (R14). -/
def rd32 (b0 b1 b2 b3 : Byte) : Word := (b3 ++ b2 : BitVec 16) ++ (b1 ++ b0 : BitVec 16)

/-- `sum8` with an 8-bit accumulator that wraps (R120, R121): the accumulator after the bytes. -/
def sumFrom (acc : Byte) : List Byte → Byte
  | [] => acc
  | b :: bs => sumFrom (acc + b) bs

/-- `sum8(s)`: the 8-bit wrap-around sum of the bytes (R120). -/
def sum8 (bs : List Byte) : Byte := sumFrom 0 bs

/-- A frame is its body followed by the checksum trailer over the whole body (R88, R122). -/
def stamped (body : List Byte) : List Byte := body ++ [sum8 body]

/-- CHECKSUM_VALIDATE on a whole frame: the last byte is `sum8` of the bytes before it (R123). -/
def trailerOk (frame : List Byte) : Bool :=
  match frame.getLast? with
  | some c => c == sum8 frame.dropLast
  | none => false

/-- The 8-byte header: marker, second byte, 4-byte slot, 2-byte slot (R90). -/
def header (marker second : Byte) (a : Word) (n : Half) : List Byte :=
  marker :: second :: (le32 a ++ le16 n)

/-- CMD_READ without its trailer (R91). -/
def readBody (c : Config.Params) (a : Word) (n : Half) : List Byte :=
  header c.raw.marker c.raw.subopRead a n

/-- CMD_WRITE's header: the length slot is zero whatever the payload (R92). -/
def writeHeader (c : Config.Params) (a : Word) : List Byte :=
  header c.raw.marker c.raw.subopWrite a 0

/-- CMD_ERASE_ALL without its trailer: both slots are zero (R93). -/
def eraseAllBody (c : Config.Params) : List Byte :=
  header c.raw.marker c.raw.subopEraseAll 0 0

/-- CMD_ERASE_SECTOR without its trailer: the length slot is zero (R94). -/
def eraseSectorBody (c : Config.Params) (t : Word) : List Byte :=
  header c.raw.marker c.raw.subopEraseSector t 0

/-- RSP_READ without its trailer (R95). -/
def rspReadBody (c : Config.Params) (echo : Word) (d : List Byte) : List Byte :=
  header c.raw.marker Config.statusOk echo (BitVec.ofNat 16 d.length) ++ d

/-- RSP_ACK9 without its trailer (R96). -/
def rspAck9Body (c : Config.Params) (r2 r3 r4 r5 r6 r7 : Byte) : List Byte :=
  [c.raw.marker, Config.statusOk, r2, r3, r4, r5, r6, r7]

/-- The alternating training bytes, 0x18 at even offsets (R97). -/
def trainingPairs : Nat → List Byte
  | 0 => []
  | k + 1 => 0x18 :: 0xFF :: trainingPairs k

/-- The bytes of a constant table (R97, R100). -/
def assetBytes (c : Config.Params) : Asset → List Byte
  | .training => trainingPairs (Config.trainingLen / 2)
  | .announce => c.raw.announce
  | .loader => c.raw.loader
  | .execute => c.raw.execute

/-- REQ_OP's code of a request (R23, R87). -/
def opCode : Op → BitVec 2
  | .connectOnly => 0
  | .read => 1
  | .write => 2
  | .erase => 3

/-- The request that REQ_OP bits [1:0] select: all four values are legal (R87). -/
def opOfCode (v : BitVec 2) : Op :=
  if v = 0 then .connectOnly else if v = 1 then .read else if v = 2 then .write else .erase

/-- The code of a response shape: READ 0, ACK9 1 (R151). -/
def shapeCode : Shape → Nat
  | .read => 0
  | .ack9 => 1

end Sys2Proof.Codec
end

