-- ==== Sys2Proof/WellFormed.lean ====
section
/-!
DEFINITION. Which instructions are well formed: every operand inside the range its rule gives it.
-/

namespace Sys2Proof

/-- The operand ranges the spec gives: a chunk length is 1 to 0x200 (R91, R92), a sector target is
above 0 and below CAPACITY (R165), a read response carries at most 0x200 bytes (R95), the execute
stream is 11 bytes (R101), and the checksum primitives take 0 to 520, 8 to 520 and 9 to 521 bytes
(R121 to R123). -/
def Instr.wf : Instr → Bool
  | .cmdRead _ n => 1 ≤ n.toNat && n.toNat ≤ Config.chunkMax
  | .cmdWrite _ d => 1 ≤ d.length && d.length ≤ Config.chunkMax
  | .cmdEraseSector t => 0 < t.toNat && t.toNat < Config.capacity
  | .rspRead _ d => d.length ≤ Config.chunkMax
  | .execStream bs => bs.length == Config.execCount
  | .checksum bs => bs.length < Config.bufLen
  | .checksumStamp n => Config.hdrLen ≤ n && n < Config.bufLen
  | .checksumValidate n => Config.ack9Len ≤ n && n ≤ Config.bufLen
  | .reqConnectOnly | .reqRead | .reqWrite | .reqErase
  | .cmdEraseAll | .rspAck9 _ _ _ _ _ _
  | .hsTraining | .hsAck | .genAck | .announceCmd | .loaderBin | .executeCmd
  | .awaitEq | .awaitAck | .awaitCount | .awaitFrame
  | .openPort | .txwrite _ | .poll | .flush | .ctlAssert | .ctlRelease | .close | .srcRead
  | .sinkWrite | .streamClose | .wait _
  | .seqStart | .seqRange | .seqHandshake _ | .seqLoader _ | .seqDispatch | .seqReadChunk _
  | .seqWriteChunk _ | .seqErase _ | .seqTeardown _ => true

end Sys2Proof
end

