-- ==== Sys2Proof/Decode.lean ====
section
/-!
DEFINITION. The decoder, total on every code, rejecting by name; the encoder, written from the same
encoding tables; and the host's view of the opcode table's words.
-/

namespace Sys2Proof

/-- Why a code is no instruction. Each name is one check of spec/30_encoding.md. -/
inductive DecodeError where
  /-- Fewer bytes than a header and a trailer (R102). -/
  | tooShort
  /-- Byte 0 is not MARKER (R88). -/
  | badMarker
  /-- The second byte is no sub-op of the four (R103). -/
  | unknownSubop
  /-- A received status other than 0x00 (R104, R105). -/
  | badStatus
  /-- A length field, slot or payload outside what the form allows (R90 to R96, R103, R104). -/
  | badLength
  /-- An address slot outside what the form allows (R93, R165). -/
  | badAddress
  /-- The trailer is not `sum8` of the bytes before it (R88). -/
  | badChecksum
  /-- A single byte that is neither 0x11 nor 0x01 (R98, R99). -/
  | notAnAck
  /-- Not the constant table's bytes (R97, R100). -/
  | notTheAsset
  /-- A collector mode code other than 1 to 4: 0 is IDLE (R151). -/
  | noMode
  /-- A step register value that names no action: IDLE (R191). -/
  | noStep
  /-- A checksum operand outside its range (R121 to R123). -/
  | badOperand
deriving DecidableEq, Repr

namespace Decode

/-- REQ_OP bits [1:0] select the request, bits [31:2] are not stored (R87). -/
def request (w : Word) : Instr :=
  match Codec.opOfCode (w.extractLsb' 0 2) with
  | .connectOnly => .reqConnectOnly
  | .read => .reqRead
  | .write => .reqWrite
  | .erase => .reqErase

/-- The operands of a command frame whose marker and trailer passed, by its sub-op (R91 to R94): `a`
and `n` are the two slots, `d` the payload. -/
def commandFields (c : Config.Params) (subop : Byte) (a : Word) (n : Half) (d : List Byte) :
    Except DecodeError Instr :=
  if subop = c.raw.subopRead then
    if d ≠ [] then .error .badLength
    else if (Instr.cmdRead a n).wf then .ok (.cmdRead a n) else .error .badLength
  else if subop = c.raw.subopWrite then
    if n ≠ 0 then .error .badLength
    else if (Instr.cmdWrite a d).wf then .ok (.cmdWrite a d) else .error .badLength
  else if subop = c.raw.subopEraseAll then
    if d ≠ [] ∨ n ≠ 0 then .error .badLength
    else if a = 0 then .ok .cmdEraseAll else .error .badAddress
  else if subop = c.raw.subopEraseSector then
    if d ≠ [] ∨ n ≠ 0 then .error .badLength
    else if (Instr.cmdEraseSector a).wf then .ok (.cmdEraseSector a) else .error .badAddress
  else .error .unknownSubop

/-- A command frame: marker, sub-op, the two slots, payload, trailer (R88, R90). -/
def command (c : Config.Params) (bs : List Byte) : Except DecodeError Instr :=
  match bs with
  | m :: subop :: a0 :: a1 :: a2 :: a3 :: n0 :: n1 :: t :: rest =>
    if m ≠ c.raw.marker then .error .badMarker
    else if Codec.trailerOk bs = false then .error .badChecksum
    else commandFields c subop (Codec.rd32 a0 a1 a2 a3) (Codec.rd16 n0 n1) (t :: rest).dropLast
  | _ => .error .tooShort

/-- A response frame in the shape the collector expects: the checks of R104 in byte order (R148). -/
def response (c : Config.Params) (sh : Shape) (bs : List Byte) : Except DecodeError Instr :=
  match bs with
  | m :: st :: b2 :: b3 :: b4 :: b5 :: b6 :: b7 :: t :: rest =>
    if m ≠ c.raw.marker then .error .badMarker
    else if st ≠ Config.statusOk then .error .badStatus
    else match sh with
      | .read =>
        let d := (t :: rest).dropLast
        if Config.chunkMax < (Codec.rd16 b6 b7).toNat ∨ (Codec.rd16 b6 b7).toNat ≠ d.length then
          .error .badLength
        else if Codec.trailerOk bs = false then .error .badChecksum
        else .ok (.rspRead (Codec.rd32 b2 b3 b4 b5) d)
      | .ack9 =>
        if rest ≠ [] then .error .badLength
        else if Codec.trailerOk bs = false then .error .badChecksum
        else .ok (.rspAck9 b2 b3 b4 b5 b6 b7)
  | _ => .error .tooShort

/-- A single-byte answer (R98, R99). -/
def reply (bs : List Byte) : Except DecodeError Instr :=
  match bs with
  | [b] =>
    if b = Config.hsAckByte then .ok .hsAck
    else if b = Config.genAckByte then .ok .genAck
    else .error .notAnAck
  | _ => .error .badLength

/-- The execute stream: 11 bytes of any value (R101). -/
def stream (bs : List Byte) : Except DecodeError Instr :=
  if (Instr.execStream bs).wf then .ok (.execStream bs) else .error .badLength

/-- The instruction that transmits a constant table (R97, R100). -/
def assetInstr : Asset → Instr
  | .training => .hsTraining
  | .announce => .announceCmd
  | .loader => .loaderBin
  | .execute => .executeCmd

/-- A constant table (R97, R100). -/
def asset (c : Config.Params) (k : Asset) (bs : List Byte) : Except DecodeError Instr :=
  if bs = Codec.assetBytes c k then .ok (assetInstr k) else .error .notTheAsset

/-- The collector mode codes EQ 1, ACK 2, COUNT 3, FRAME 4 (R151). -/
def mode (v : BitVec 3) : Except DecodeError Instr :=
  if v = 1 then .ok .awaitEq
  else if v = 2 then .ok .awaitAck
  else if v = 3 then .ok .awaitCount
  else if v = 4 then .ok .awaitFrame
  else .error .noMode

/-- A checksum primitive (R121 to R123). -/
def sum (f : SumForm) : Except DecodeError Instr :=
  let i := match f with
    | .compute bs => Instr.checksum bs
    | .stamp n => Instr.checksumStamp n
    | .validate n => Instr.checksumValidate n
  if i.wf then .ok i else .error .badOperand

/-- An engine call (R131 to R141). -/
def call : Call → Instr
  | .openPort => .openPort
  | .poll => .poll
  | .flush => .flush
  | .ctlAssert => .ctlAssert
  | .ctlRelease => .ctlRelease
  | .close => .close
  | .srcRead => .srcRead
  | .sinkWrite => .sinkWrite
  | .streamClose => .streamClose
  | .txwrite src => .txwrite src
  | .wait t => .wait t

/-- The stage whose steps hold a value of the step register (R191). OPEN is the engine call itself
(R195); IDLE names no action (R192). -/
def stage : SeqStep → Except DecodeError Instr
  | .idle => .error .noStep
  | .range => .ok .seqRange
  | .openPort => .ok .openPort
  | .hs h => .ok (.seqHandshake h)
  | .ld l => .ok (.seqLoader l)
  | .opDispatch => .ok .seqDispatch
  | .rd r => .ok (.seqReadChunk r)
  | .wr w => .ok (.seqWriteChunk w)
  | .er e => .ok (.seqErase e)
  | .td t => .ok (.seqTeardown t)

end Decode

/-- The decoder: total on every code (spec/30_encoding.md). -/
def decode (c : Config.Params) : Code → Except DecodeError Instr
  | .request w => .ok (Decode.request w)
  | .command bs => Decode.command c bs
  | .response sh bs => Decode.response c sh bs
  | .reply bs => Decode.reply bs
  | .stream bs => Decode.stream bs
  | .asset k bs => Decode.asset c k bs
  | .mode v => Decode.mode v
  | .sum f => Decode.sum f
  | .call k => .ok (Decode.call k)
  | .start => .ok .seqStart
  | .stage st => Decode.stage st

/-- The encoder, from the same tables of spec/30_encoding.md and spec/opcode_table.json. -/
def encode (c : Config.Params) : Instr → Code
  | .reqConnectOnly => .request 0
  | .reqRead => .request 1
  | .reqWrite => .request 2
  | .reqErase => .request 3
  | .cmdRead a n => .command (Codec.stamped (Codec.readBody c a n))
  | .cmdWrite a d => .command (Codec.stamped (Codec.writeHeader c a ++ d))
  | .cmdEraseAll => .command (Codec.stamped (Codec.eraseAllBody c))
  | .cmdEraseSector t => .command (Codec.stamped (Codec.eraseSectorBody c t))
  | .rspRead echo d => .response .read (Codec.stamped (Codec.rspReadBody c echo d))
  | .rspAck9 r2 r3 r4 r5 r6 r7 =>
    .response .ack9 (Codec.stamped (Codec.rspAck9Body c r2 r3 r4 r5 r6 r7))
  | .hsTraining => .asset .training (Codec.assetBytes c .training)
  | .hsAck => .reply [Config.hsAckByte]
  | .genAck => .reply [Config.genAckByte]
  | .execStream bs => .stream bs
  | .announceCmd => .asset .announce (Codec.assetBytes c .announce)
  | .loaderBin => .asset .loader (Codec.assetBytes c .loader)
  | .executeCmd => .asset .execute (Codec.assetBytes c .execute)
  | .checksum bs => .sum (.compute bs)
  | .checksumStamp n => .sum (.stamp n)
  | .checksumValidate n => .sum (.validate n)
  | .awaitEq => .mode 1
  | .awaitAck => .mode 2
  | .awaitCount => .mode 3
  | .awaitFrame => .mode 4
  | .openPort => .call .openPort
  | .txwrite src => .call (.txwrite src)
  | .poll => .call .poll
  | .flush => .call .flush
  | .ctlAssert => .call .ctlAssert
  | .ctlRelease => .call .ctlRelease
  | .close => .call .close
  | .srcRead => .call .srcRead
  | .sinkWrite => .call .sinkWrite
  | .streamClose => .call .streamClose
  | .wait t => .call (.wait t)
  | .seqStart => .start
  | .seqRange => .stage .range
  | .seqHandshake h => .stage (.hs h)
  | .seqLoader l => .stage (.ld l)
  | .seqDispatch => .stage .opDispatch
  | .seqReadChunk r => .stage (.rd r)
  | .seqWriteChunk w => .stage (.wr w)
  | .seqErase e => .stage (.er e)
  | .seqTeardown t => .stage (.td t)

/-- The first code of a list that decodes. -/
def firstDecoded (c : Config.Params) : List Code → Option Instr
  | [] => none
  | k :: ks =>
    match decode c k with
    | .ok i => some i
    | .error _ => firstDecoded c ks

/-- The bytes of a table word, the first at the lowest bits. -/
def tableBytes (nbits w : Nat) : List Byte :=
  (List.range (nbits / 8)).map (fun k => BitVec.ofNat 8 (w / 2 ^ (8 * k)))

/-- The encoding spaces a table word of this many bits can stand in. The table numbers rows of
different spaces alike (a mode code, an answer byte and REQ_OP can all be 1), so the spaces are tried
from the narrowest: the 3-bit mode register, the answer byte, the 32-bit request register, then the
frames. -/
def tableCodes (nbits w : Nat) : List Code :=
  if nbits ≤ 8 then
    (if w < 8 then [.mode (BitVec.ofNat 3 w)] else []) ++
      [.reply [BitVec.ofNat 8 w], .request (BitVec.ofNat 32 w)]
  else if nbits ≤ 32 then [.request (BitVec.ofNat 32 w)]
  else
    [.asset .training (tableBytes nbits w), .command (tableBytes nbits w),
      .response .ack9 (tableBytes nbits w), .response .read (tableBytes nbits w),
      .stream (tableBytes nbits w)]

/-- The instruction the decoder reads from a row's word as spec/opcode_table.json numbers its bits. -/
def decodeTableWord (nbits w : Nat) : Option Instr :=
  firstDecoded Config.params (tableCodes nbits w)

end Sys2Proof
end

