-- ==== Sys2Proof/Machine/State.lean ====
section
/-!
DEFINITION. The state of the block as spec/10_state.md gives it (R20), the reasons a step can stop,
and the state after reset (R49).
-/

namespace Sys2Proof.Machine

/-- A byte memory in canonical form: addresses strictly rising, no entry equal to what an unlisted
address reads as. -/
abbrev Memory := List Host.Cell

/-- STATUS.SESSION (R29). -/
inductive Session where
  | disconnected | connected | loaderInstalled | ready | reading | writing | erasing | closed
deriving DecidableEq, Repr, Inhabited

/-- The five kinds of failure (R19, R240). -/
inductive Kind where
  | transportError | protocolTimeout | protocolMismatch | rangeError | resourceError
deriving DecidableEq, Repr, Inhabited

/-- The causes of R243, each belonging to one kind. -/
inductive Cause where
  | openFail | writeFail | shortWrite | readFail
  | timeoutEq | timeoutAck | timeoutCount | timeoutFrame
  | wrongByte | nack | badMarker | badStatus | badLength | lenMismatch | badChecksum
  | region | sector
  | srcFail | srcShort | sinkFail
deriving DecidableEq, Repr, Inhabited

/-- The collector mode register (R43). -/
inductive CMode where
  | idle | eq | ack | count | frame
deriving DecidableEq, Repr, Inhabited

/-- The outcome of the last await (R43). `fail` holds the cause, which fixes the kind (R243). -/
inductive CResult where
  | none
  | success
  | fail (c : Cause)
deriving DecidableEq, Repr, Inhabited

/-- What a `Poll` answered, as the history records it (R16, R133). -/
inductive PollEvent where
  | byte (b : Byte)
  | noData
  | err
deriving DecidableEq, Repr, Inhabited

/-- One entry of the event history: a call the engine issued with the answer it received (R17). -/
inductive Event where
  | openPort (ok : Bool)
  | txWrite (bs : List Byte) (a : Config.TxAns)
  | poll (a : PollEvent)
  | flush
  | ctlAssert
  | ctlRelease
  | close (ok : Bool)
  | srcRead (a : Config.SrcAns)
  | sinkWrite (bs : List Byte) (ok : Bool)
  | streamClose
  | reset
deriving DecidableEq, Repr, Inhabited

/-- Why the machine stops with a fault. Each is safe: the model stops where a rule gives no effect,
and no state that a session reaches gets there. -/
inductive Fault where
  /-- Raised by a builder, CHECKSUM_STAMP, SRC_READ's caller or a frame TXWRITE when an index of
  `txbuf` is above 520: TXBUF has the indices 0 to 520 only (R44, R60). Safe. -/
  | txbufIndex
  /-- Raised by AWAIT_FRAME, CHECKSUM_VALIDATE or SINK_WRITE when an index of `rxbuf` is above 520:
  RXBUF has the indices 0 to 520 only (R44, R60). Safe. -/
  | rxbufIndex
  /-- Raised by TXWRITE of an empty frame, SINK_WRITE of a payload outside 1 to 0x200 bytes, and
  CHECKSUM_VALIDATE of no bytes: the operand is outside the range its rule gives it (R123, R132,
  R139). Safe. -/
  | operandRange
  /-- Raised by SEQ_DISPATCH when `op` is CONNECT_ONLY: R200 gives no case for it and says that it
  never reaches the step. Safe. -/
  | dispatchConnectOnly
deriving DecidableEq, Repr

/-- Why the model has no next state. -/
inductive Refusal where
  /-- The instruction has no meaning in the model yet. Safe. -/
  | notModelled (mnemonic : String)
  /-- Raised by every TXWRITE when the drawn answer is a count above the length: R132 and I16 say that
  it is no legal answer and that no run contains it. Safe. -/
  | txCountAboveLength
  /-- Raised by every poll when the drawn answer is NoData while `rxq` holds a byte, or a byte while
  `rxq` is empty: R133 and I17 say that it is no legal answer and that no run contains it. Safe. -/
  | pollAnswerIllegal
deriving DecidableEq, Repr

/-- The state of the block (R20). The fields after `sink` are the model's own. -/
structure State where
  -- host registers (R22 to R33)
  /-- REQ_OP[1:0]; bits [31:2] are not stored (R23). -/
  reqOp : BitVec 2
  /-- REQ_ADDR (R24). -/
  reqAddr : Word
  /-- REQ_LEN (R25). -/
  reqLen : Word
  /-- PWR_DELAY (R26). -/
  pwrDelay : Word
  /-- STATUS.BUSY (R28). -/
  busy : Bool
  /-- STATUS.DONE (R28). -/
  done : Bool
  /-- STATUS.OK (R28). -/
  ok : Bool
  /-- STATUS.SESSION (R28, R29). -/
  session : Session
  /-- ERR (R30). -/
  err : Word
  /-- CHUNKS (R31). -/
  chunks : Word
  /-- XFER (R32). -/
  xfer : Word
  /-- TXCALLS (R33). -/
  txcalls : Word
  -- latched request (R35)
  op : Op
  addr0 : Word
  len0 : Word
  pdelay : Word
  -- working registers (R36 to R39, R50)
  curAddr : Word
  remaining : Word
  chunkLen : Half
  widx : Nat
  t0 : Nat
  -- sequencer (R40, R42)
  step : SeqStep
  failed : Bool
  -- collector (R43)
  cmode : CMode
  cexp : Byte
  cshape : Shape
  ctimeout : Nat
  cidx : Nat
  cneed : Nat
  cresult : CResult
  -- frame buffers (R44)
  txbuf : Memory
  txlen : Nat
  rxbuf : Memory
  -- transport side (R45 to R47)
  rxq : List Byte
  portOpen : Bool
  ctlAsserted : Bool
  streamOpen : Bool
  -- clock and history (R48, R17)
  now : Nat
  hist : List Event
  -- the outward halves of the WIRE and IMAGE spaces (R60)
  /-- WIRE, TX: the bytes that reached the wire, oldest first (R60, R132); none at power-on, by the model's
  choice (log entry 16). -/
  txwire : List Byte
  /-- IMAGE as a sink: the bytes it holds of the last READ session (R60, R139); none before the first READ, by
  the model's choice (log entry 18). -/
  sink : List Byte
  -- the model's own
  /-- A WAIT has begun and has not ended (R141). -/
  waiting : Bool
  /-- The value the last host read returned (R34). -/
  rdata : Word
  /-- The value the last CHECKSUM returned (R121). -/
  sumOut : Byte
  /-- The configuration (R8, R20): no step changes it. -/
  cfg : Config.Params
  /-- What the Transport and the image stream answer in the current engine step (I13, I14). -/
  ans : Config.Answers
  /-- The scheduled moves of the agents, next first (R10). -/
  inputs : List Config.Turn
  /-- How many moves have been drawn freely (I15, I23). -/
  draws : Nat
deriving DecidableEq, Repr

/-- The reset state of R49 for a configuration. What R49 has no value for is the model's own choice: the
sink and the TX wire are empty (log entries 16 and 18), `now` is 0 (log entry 14), the frame buffers list nothing
(log entry 12), and the fields after `sink` are blank (log entries 3, 4, 10, 23, 24, 36). -/
def State.resetWith (c : Config.Params) : State where
  reqOp := 0
  reqAddr := 0
  reqLen := 0
  pwrDelay := 0
  busy := false
  done := false
  ok := false
  session := .disconnected
  err := 0
  chunks := 0
  xfer := 0
  txcalls := 0
  op := .connectOnly
  addr0 := 0
  len0 := 0
  pdelay := 0
  curAddr := 0
  remaining := 0
  chunkLen := 0
  widx := 0
  t0 := 0
  step := .idle
  failed := false
  cmode := .idle
  cexp := 0
  cshape := .read
  ctimeout := 0
  cidx := 0
  cneed := 0
  cresult := .none
  txbuf := []
  txlen := 0
  rxbuf := []
  rxq := []
  portOpen := false
  ctlAsserted := false
  streamOpen := false
  now := 0
  hist := []
  txwire := []
  sink := []
  waiting := false
  rdata := 0
  sumOut := 0
  cfg := c
  ans := ⟨true, .err, 0, .err, true, .err, true, []⟩
  inputs := []
  draws := 0

/-- The machine right after power-on reset (R49, R272), with the open configuration. -/
def State.reset : State := State.resetWith Config.params

end Sys2Proof.Machine
end

