-- ==== Sys2Proof/Machine/Memory.lean ====
section
/-!
DEFINITION. The frame buffers TXBUF and RXBUF as byte memories (R44, R60): reading, writing, and the
canonical form that makes equal memories equal data.
-/

namespace Sys2Proof.Machine

/-- What an unlisted address reads as. The spec leaves the buffers' reset contents unspecified and
unobservable (R44, I3). DESIGN CHOICE: 0x00. -/
def Memory.blank : Byte := 0

/-- The byte at an address. -/
def Memory.read : Memory → Nat → Byte
  | [], _ => Memory.blank
  | (k, v) :: m, a => if k = a then v else Memory.read m a

/-- Put an entry before the first entry of a higher address. -/
def Memory.insert (a : Nat) (b : Byte) : Memory → Memory
  | [] => [(a, b)]
  | (k, v) :: m => if a < k then (a, b) :: (k, v) :: m else (k, v) :: Memory.insert a b m

/-- Take every entry of an address out. -/
def Memory.remove (a : Nat) : Memory → Memory
  | [] => []
  | (k, v) :: m => if k = a then Memory.remove a m else (k, v) :: Memory.remove a m

/-- Store a byte, keeping the canonical form: a stored blank is an unlisted address. -/
def Memory.write (a : Nat) (b : Byte) (m : Memory) : Memory :=
  if b = Memory.blank then m.remove a else (m.remove a).insert a b

/-- The canonical form holds, and every address is an index of the buffer. -/
def Memory.wf : Memory → Bool
  | [] => true
  | (k, v) :: m =>
    decide (v ≠ Memory.blank) && decide (k < Config.bufLen) && m.all (fun c => decide (k < c.1)) &&
      Memory.wf m

/-- Store bytes at rising addresses from `a`. -/
def Memory.writeBytes (m : Memory) (a : Nat) : List Byte → Memory
  | [] => m
  | b :: bs => Memory.writeBytes (Memory.write a b m) (a + 1) bs

/-- The `n` bytes from address `a`. -/
def Memory.readBytes (m : Memory) (a : Nat) : Nat → List Byte
  | 0 => []
  | n + 1 => m.read a :: Memory.readBytes m (a + 1) n

end Sys2Proof.Machine
end

