-- ==== Sys2Proof/Machine/Flags.lean ====
section
/-!
DEFINITION. The codes of STATUS and ERR (R28 to R30, R241 to R243), the STAGE code of every step
(R191, R242), which step may raise which cause (R244), and the `irq` output (R253).
-/

namespace Sys2Proof.Machine

/-- SESSION codes (R29). -/
def Session.code : Session → BitVec 3
  | .disconnected => 0
  | .connected => 1
  | .loaderInstalled => 2
  | .ready => 3
  | .reading => 4
  | .writing => 5
  | .erasing => 6
  | .closed => 7

/-- ERR.KIND codes (R241). -/
def Kind.code : Kind → BitVec 4
  | .transportError => 1
  | .protocolTimeout => 2
  | .protocolMismatch => 3
  | .rangeError => 4
  | .resourceError => 5

/-- The kind a cause belongs to (R243). -/
def Cause.kind : Cause → Kind
  | .openFail | .writeFail | .shortWrite | .readFail => .transportError
  | .timeoutEq | .timeoutAck | .timeoutCount | .timeoutFrame => .protocolTimeout
  | .wrongByte | .nack | .badMarker | .badStatus | .badLength | .lenMismatch | .badChecksum =>
    .protocolMismatch
  | .region | .sector => .rangeError
  | .srcFail | .srcShort | .sinkFail => .resourceError

/-- ERR.CAUSE codes, per kind (R243). -/
def Cause.code : Cause → BitVec 8
  | .openFail => 1
  | .writeFail => 2
  | .shortWrite => 3
  | .readFail => 4
  | .timeoutEq => 1
  | .timeoutAck => 2
  | .timeoutCount => 3
  | .timeoutFrame => 4
  | .wrongByte => 1
  | .nack => 2
  | .badMarker => 3
  | .badStatus => 4
  | .badLength => 5
  | .lenMismatch => 6
  | .badChecksum => 7
  | .region => 1
  | .sector => 2
  | .srcFail => 1
  | .srcShort => 2
  | .sinkFail => 3

/-- The STAGE code of a step (R191, R242). OP_DISPATCH has the code of the operation; IDLE has no
action and the code 0, "none". -/
def stageOf (op : Op) : SeqStep → BitVec 4
  | .idle => 0
  | .range => 1
  | .openPort => 2
  | .hs _ => 3
  | .ld .announceTx | .ld .announceAwait => 4
  | .ld .preUpload | .ld .uploadTx | .ld .uploadAwait => 5
  | .ld .preExec | .ld .execTx | .ld .execAwait | .ld .final => 6
  | .opDispatch =>
    match op with
    | .connectOnly => 0
    | .read => 7
    | .write => 8
    | .erase => 9
  | .rd _ => 7
  | .wr _ => 8
  | .er _ => 9
  | .td _ => 10

/-- The ERR word: CAUSE in bits [15:8], STAGE in [7:4], KIND in [3:0], the rest 0 (R30). -/
def errWord (c : Cause) (stage : BitVec 4) : Word :=
  (0 : BitVec 16) ++ (c.code ++ (stage ++ c.kind.code))

/-- ERR.KIND (R30). -/
def errKind (w : Word) : BitVec 4 := w.extractLsb' 0 4

/-- ERR.STAGE (R30). -/
def errStage (w : Word) : BitVec 4 := w.extractLsb' 4 4

/-- ERR.CAUSE (R30). -/
def errCause (w : Word) : BitVec 8 := w.extractLsb' 8 8

/-- The STATUS word: SESSION in bits [6:4], OK, DONE and BUSY in bits 2, 1 and 0, the rest 0 (R28). -/
def State.statusWord (s : State) : Word :=
  (0 : BitVec 25) ++ (s.session.code ++
    (0#1 ++ (BitVec.ofBool s.ok ++ (BitVec.ofBool s.done ++ BitVec.ofBool s.busy))))

/-- The level output `irq` (R253). -/
def State.irq (s : State) : Bool := s.done

/-- The mode codes that R151 gives to ERR.CAUSE and to the opcode table. -/
def CMode.code : CMode → BitVec 3
  | .idle => 0
  | .eq => 1
  | .ack => 2
  | .count => 3
  | .frame => 4

/-- The cause of a timeout in a mode (R143, R243). IDLE has no await to time out; its value is never
read. -/
def CMode.timeoutCause : CMode → Cause
  | .idle | .eq => .timeoutEq
  | .ack => .timeoutAck
  | .count => .timeoutCount
  | .frame => .timeoutFrame

/-- Which causes a step may raise: the table of R244; every other step raises none. -/
def raises : SeqStep → List Cause
  | .range => [.region, .sector]
  | .openPort => [.openFail]
  | .hs .train | .ld .announceTx | .ld .uploadTx | .ld .execTx | .rd .tx | .wr .tx | .er .tx =>
    [.writeFail, .shortWrite]
  | .hs .await => [.readFail, .timeoutEq, .wrongByte]
  | .ld .announceAwait | .ld .uploadAwait => [.readFail, .timeoutAck, .nack]
  | .ld .execAwait => [.readFail, .timeoutCount]
  | .rd .await =>
    [.readFail, .timeoutFrame, .badMarker, .badStatus, .badLength, .lenMismatch, .badChecksum]
  | .wr .await | .er .await => [.readFail, .timeoutFrame, .badMarker, .badStatus, .badChecksum]
  | .wr .src => [.srcFail, .srcShort]
  | .rd .commit => [.sinkFail]
  | _ => []

/-- The steps that raise at all (R244). -/
def raisingSteps : List SeqStep :=
  [.range, .openPort, .hs .train, .hs .await, .ld .announceTx, .ld .announceAwait, .ld .uploadTx,
    .ld .uploadAwait, .ld .execTx, .ld .execAwait, .rd .tx, .rd .await, .rd .commit, .wr .src, .wr .tx,
    .wr .await, .er .tx, .er .await]

/-- ERR holds 0 or a diagnostic that R244's table allows (R30, R241 to R244). -/
def legalErr (op : Op) (w : Word) : Prop :=
  w = 0 ∨ ∃ st ∈ raisingSteps, ∃ c ∈ raises st, w = errWord c (stageOf op st)

end Sys2Proof.Machine
end

