-- ==== Sys2Proof/Machine/Operands.lean ====
section
/-!
DEFINITION. The operand forms: the ticks of a WAIT, the bytes of a TXWRITE, the payload slices of the
buffers, the budget, mode and shape of every await, and the host registers (R22, R34).
-/

namespace Sys2Proof.Machine

/-- The ticks of WAIT(T): a parameter of R8, or `pdelay` (R141). -/
def State.waitTicks (s : State) : WaitArg → Nat
  | .pdelay => s.pdelay.toNat
  | .hsSettle => s.cfg.raw.tHsSettle
  | .preUpload => s.cfg.raw.tPreUpload
  | .preExec => s.cfg.raw.tPreExec
  | .final => s.cfg.raw.tFinal
  | .chunkSettle => s.cfg.raw.tChunkSettle

/-- `txbuf[0..txlen)`: the command frame being sent (R44, R70). -/
def State.txFrame (s : State) : List Byte := s.txbuf.readBytes 0 s.txlen

/-- The bytes of TXWRITE(s) (R70, R132). -/
def State.txBytes (s : State) : TxSrc → List Byte
  | .frame => s.txFrame
  | .training => Codec.assetBytes s.cfg .training
  | .announce => Codec.assetBytes s.cfg .announce
  | .loader => Codec.assetBytes s.cfg .loader
  | .execute => Codec.assetBytes s.cfg .execute

/-- The payload of a validated read response: `rxbuf[8..8+chunk_len)` (R168). -/
def State.rxPayload (s : State) : List Byte := s.rxbuf.readBytes Config.hdrLen s.chunkLen.toNat

/-- The image bytes of a write chunk: `txbuf[8..8+chunk_len)` (R203). -/
def State.imageBytes (s : State) : List Byte := s.txbuf.readBytes Config.hdrLen s.chunkLen.toNat

/-- The length of the next chunk: `min(remaining, CHUNK_MAX)` (R38, R160). -/
def State.nextChunkLen (s : State) : Half := BitVec.ofNat 16 (min s.remaining.toNat Config.chunkMax)

/-- A host read: the register's current value; CTRL and the numbers above 9 read 0 (R22, R27, R34). -/
def State.hostReg (s : State) (n : Nat) : Word :=
  if n = 0 then s.reqOp.setWidth 32
  else if n = 1 then s.reqAddr
  else if n = 2 then s.reqLen
  else if n = 3 then s.pwrDelay
  else if n = 5 then s.statusWord
  else if n = 6 then s.err
  else if n = 7 then s.chunks
  else if n = 8 then s.xfer
  else if n = 9 then s.txcalls
  else 0

/-- The CTRL register's number (R22, R27). -/
def ctrlReg : Nat := 4

/-- A host write that is no START: the request registers take it while BUSY is 0, REQ_OP keeps only
bits [1:0]; every other write is ignored (R22 to R27, R276). -/
def State.hostStore (s : State) (n : Nat) (v : Word) : State :=
  if s.busy then s
  else if n = 0 then { s with reqOp := v.extractLsb' 0 2 }
  else if n = 1 then { s with reqAddr := v }
  else if n = 2 then { s with reqLen := v }
  else if n = 3 then { s with pwrDelay := v }
  else s

/-- The await steps of the sequencer, each with the mode and shape of its await (R196 to R205). -/
def awaitMode : SeqStep → Option (CMode × Shape)
  | .hs .await => some (.eq, .read)
  | .ld .announceAwait => some (.ack, .read)
  | .ld .uploadAwait => some (.ack, .read)
  | .ld .execAwait => some (.count, .read)
  | .rd .await => some (.frame, .read)
  | .wr .await => some (.frame, .ack9)
  | .er .await => some (.frame, .ack9)
  | _ => none

/-- The number of bytes that completes an await at its entry: 1 (EQ, ACK), n = 11 (COUNT), 8
(FRAME/READ) or 9 (FRAME/ACK9) (R142). IDLE is no await. -/
def CMode.need (m : CMode) (sh : Shape) : Nat :=
  match m, sh with
  | .idle, _ => 0
  | .eq, _ => 1
  | .ack, _ => 1
  | .count, _ => Config.execCount
  | .frame, .read => Config.hdrLen
  | .frame, .ack9 => Config.ack9Len

end Sys2Proof.Machine
end

