-- ==== Sys2Proof/Machine/Ops.lean ====
section
/-!
DEFINITION. The operations the meanings share: what one engine action can end in, taking a failure and
ending a session, the successor table, the buffers, and the calls on the other agents.
-/

namespace Sys2Proof.Machine

/-- The outcome of one step of this machine. -/
abbrev Out := Host.Outcome State Fault Refusal

/-- What one engine action ends in (R192): it completes, it holds, it raises a failure, or it has no
next state. `fail` carries the state with the effects that came before the failure (R247). -/
inductive Act where
  | ok (s : State)
  | hold (s : State)
  | fail (c : Cause) (s : State)
  | refuse (r : Refusal)
  | stop (f : Fault)

/-- Go on only when the action completed. -/
def Act.andThen (a : Act) (k : State → Act) : Act :=
  match a with
  | .ok s => k s
  | .hold s => .hold s
  | .fail c s => .fail c s
  | .refuse r => .refuse r
  | .stop f => .stop f

/-! ## Named updates -/

/-- `step <- st` (R15, R40). -/
def State.goto (st : SeqStep) (s : State) : State := { s with step := st }

/-- Append an event to `hist` (R17). -/
def State.log (e : Event) (s : State) : State := { s with hist := s.hist ++ [e] }

/-- The Peer appends bytes to the tail of `rxq`, in order (R11, R45). -/
def State.receive (bs : List Byte) (s : State) : State := { s with rxq := s.rxq ++ bs }

/-! ## Taking a failure, and the end of a session -/

/-- Failure entry: `raise Fail(kind, cause)` at a step records ERR at the first failure only, idles the
collector, and goes to TEARDOWN_CLOSE, all in the same engine step (R246). -/
def State.raise (st : SeqStep) (c : Cause) (s : State) : State :=
  { s with
    err := if s.failed then s.err else errWord c (stageOf s.op st)
    failed := true
    cmode := .idle
    step := .td .close }

/-- FINISH, the return of the block: the session ends, its results stay, and only START goes on (R206,
R250). -/
def State.endSession (s : State) : State :=
  { s with session := .closed, busy := false, done := true, ok := !s.failed, step := .idle }

/-! ## Successors -/

/-- The successor of each step on success (R207), read in the state the step's action leaves. OP_DISPATCH
with CONNECT_ONLY has no successor (R200); its action stops before this table is read. -/
def successor (s : State) : SeqStep → SeqStep
  | .idle => .range
  | .range => .openPort
  | .openPort => .hs .assert
  | .hs .assert => .hs .powerWait
  | .hs .powerWait => .hs .train
  | .hs .train => .hs .release
  | .hs .release => .hs .await
  | .hs .await => .hs .settle
  | .hs .settle => .hs .flush
  | .hs .flush => if s.op = .connectOnly then .td .close else .ld .announceTx
  | .ld .announceTx => .ld .announceAwait
  | .ld .announceAwait => .ld .preUpload
  | .ld .preUpload => .ld .uploadTx
  | .ld .uploadTx => .ld .uploadAwait
  | .ld .uploadAwait => .ld .preExec
  | .ld .preExec => .ld .execTx
  | .ld .execTx => .ld .execAwait
  | .ld .execAwait => .ld .final
  | .ld .final => .opDispatch
  | .opDispatch =>
    match s.op with
    | .connectOnly => .td .close
    | .read => .rd .next
    | .write => .wr .next
    | .erase => .er .build
  | .rd .next => if s.remaining = 0 then .td .close else .rd .settle
  | .rd .settle => .rd .tx
  | .rd .tx => .rd .await
  | .rd .await => .rd .commit
  | .rd .commit => .rd .next
  | .wr .next => if s.remaining = 0 then .td .close else .wr .src
  | .wr .src => if s.widx < s.chunkLen.toNat then .wr .src else .wr .build
  | .wr .build => .wr .settle
  | .wr .settle => .wr .tx
  | .wr .tx => .wr .await
  | .wr .await => .wr .commit
  | .wr .commit => .wr .next
  | .er .build => .er .settle
  | .er .settle => .er .tx
  | .er .tx => .er .await
  | .er .await => .er .commit
  | .er .commit => .td .close
  | .td .close => .td .stream
  | .td .stream => .td .finish
  | .td .finish => .idle

/-- Set `step` to the successor of `st` (R192, R207). -/
def State.advance (st : SeqStep) (s : State) : State := s.goto (successor s st)

/-- What the completion of an await does besides the collector's own registers: LoaderInstalled is set
in the step that receives the 11th execute byte (R198), and the sequencer goes on at the step after
the await (R149). Where `st` is no await step there is no step after it. -/
def State.finishAwait (st : SeqStep) (s : State) : State :=
  match awaitMode st with
  | none => s
  | some _ =>
    if st = .ld .execAwait then State.advance st { s with session := .loaderInstalled }
    else State.advance st s

/-- The outcome of an action at a step: a failure is taken at that step (R192, R246). -/
def Act.settle (st : SeqStep) (onOk : State → State) (a : Act) : Out :=
  match a with
  | .ok s => .next (onOk s)
  | .hold s => .next s
  | .fail c s => .next (s.raise st c)
  | .refuse r => .refused r
  | .stop f => .fault f

/-! ## START -/

/-- START (R193): latch the request, clear the results, take the image stream for READ and WRITE, go to
RANGE. While BUSY = 1 it is ignored (R27, R276). The sink of a new READ holds nothing yet. -/
def State.start (op : Op) (s : State) : State :=
  if s.busy then s
  else
    { s with
      op := op
      addr0 := s.reqAddr
      len0 := s.reqLen
      pdelay := s.pwrDelay
      busy := true
      done := false
      ok := false
      session := .disconnected
      err := 0
      chunks := 0
      xfer := 0
      txcalls := 0
      failed := false
      streamOpen := op == .read || op == .write
      sink := if op = .read then [] else s.sink
      step := .range }

/-! ## The transmit buffer and the checksum primitives -/

/-- Store bytes in `txbuf` from index `a` (R44). -/
def storeTx (a : Nat) (bs : List Byte) (s : State) : Act :=
  if a + bs.length ≤ Config.bufLen then .ok { s with txbuf := s.txbuf.writeBytes a bs }
  else .stop .txbufIndex

/-- CHECKSUM_STAMP: `txbuf[n] <- sum8(txbuf[0..n)); txlen <- n + 1` (R122). -/
def stampTx (n : Nat) (s : State) : Act :=
  if n < Config.bufLen then
    .ok { s with
      txbuf := Memory.write n (Codec.sum8 (s.txbuf.readBytes 0 n)) s.txbuf
      txlen := n + 1 }
  else .stop .txbufIndex

/-- A builder without payload: the 8-byte header, then the trailer (R162, R164, R165). -/
def buildTx (body : List Byte) (s : State) : Act :=
  (storeTx 0 body s).andThen (stampTx body.length)

/-- BUILD_WRITE(a, d): header, payload, trailer (R163). -/
def buildWrite (a : Word) (d : List Byte) (s : State) : Act :=
  ((storeTx 0 (Codec.writeHeader s.cfg a) s).andThen (storeTx Config.hdrLen d)).andThen
    (stampTx (Config.hdrLen + d.length))

/-- A failed await: `cresult <- FAIL(kind, cause)`, `cmode <- IDLE`, and the failure is raised (R149). -/
def failAwait (c : Cause) (s : State) : Act :=
  .fail c { s with cresult := .fail c, cmode := .idle }

/-- CHECKSUM_VALIDATE of `rxbuf[0..n)` (R123); a mismatch is a failed await (R149). -/
def validateRx (n : Nat) (s : State) : Act :=
  if n = 0 then .stop .operandRange
  else if Config.bufLen < n then .stop .rxbufIndex
  else if Codec.sum8 (s.rxbuf.readBytes 0 (n - 1)) = s.rxbuf.read (n - 1) then .ok s
  else failAwait .badChecksum s

/-! ## Calls on the Transport and the image stream -/

/-- OPEN (R131): on ok the port is open and `rxq` is empty. -/
def openCall (s : State) : Act :=
  if s.ans.openOk then .ok { s.log (.openPort true) with portOpen := true, rxq := [] }
  else .fail .openFail (s.log (.openPort false))

/-- TXWRITE(s) (R132): the call counts whatever its answer. The wire sees all of s, its first c bytes,
or, when the answer is err, any of its leading parts. A count above |s| is no legal answer. -/
def txWrite (bs : List Byte) (s : State) : Act :=
  if bs = [] then .stop .operandRange
  else
    let sent := { s.log (.txWrite bs s.ans.tx) with txcalls := s.txcalls + 1 }
    match s.ans.tx with
    | .count c =>
      if bs.length < c then .refuse .txCountAboveLength
      else if c = bs.length then .ok { sent with txwire := s.txwire ++ bs }
      else .fail .shortWrite { sent with txwire := s.txwire ++ bs.take c }
    | .err => .fail .writeFail { sent with txwire := s.txwire ++ bs.take s.ans.wireOnErr }

/-- TXWRITE of an operand form (R70, R132): a frame lies in `txbuf`, indices 0 to 520. -/
def txSend (src : TxSrc) (s : State) : Act :=
  if src = .frame ∧ Config.bufLen < s.txlen then .stop .txbufIndex
  else txWrite (s.txBytes src) s

/-- FLUSH empties the receive queue (R134). -/
def flushCall (s : State) : State := { s.log .flush with rxq := [] }

/-- CTL_ASSERT (R135). -/
def ctlAssertCall (s : State) : State := { s.log .ctlAssert with ctlAsserted := true }

/-- CTL_RELEASE (R136). -/
def ctlReleaseCall (s : State) : State := { s.log .ctlRelease with ctlAsserted := false }

/-- CLOSE (R137): issued only while the port is open; whatever the answer, the port is closed and the
control line is taken as released. -/
def closeCall (s : State) : State :=
  if s.portOpen then
    { s.log (.close s.ans.closeOk) with portOpen := false, ctlAsserted := false }
  else s

/-- STREAM_CLOSE (R140): issued only while the stream is open. -/
def streamCloseCall (s : State) : State :=
  if s.streamOpen then { s.log .streamClose with streamOpen := false } else s

/-- SINK_WRITE of the validated payload `rxbuf[8..8+chunk_len)` (R139, R168). When it fails the sink
keeps what it held and anything it took of the payload (I2). -/
def sinkCall (s : State) : Act :=
  if s.chunkLen = 0 ∨ Config.chunkMax < s.chunkLen.toNat then .stop .operandRange
  else if s.ans.sinkOk then
    .ok { s.log (.sinkWrite s.rxPayload true) with sink := s.sink ++ s.rxPayload }
  else
    .fail .sinkFail
      { s.log (.sinkWrite s.rxPayload false) with sink := s.sink ++ s.ans.sinkOnErr }

/-- WAIT(T) (R141): the first engine step of a wait stamps `t0`; each later one tests whether T ticks
have passed since. -/
def waitCall (t : WaitArg) (s : State) : Act :=
  if s.waiting = false then .hold { s with t0 := s.now, waiting := true }
  else if s.waitTicks t ≤ s.now - s.t0 then .ok { s with waiting := false }
  else .hold s

/-! ## The byte collector -/

/-- Await entry (R142). For EQ the expected byte, for FRAME the shape, is set before. -/
def State.enterAwait (m : CMode) (budget : Nat) (s : State) : State :=
  { s with
    cmode := m
    ctimeout := budget
    t0 := s.now
    cidx := 0
    cneed := m.need s.cshape
    cresult := .none }

/-- `done(SUCCESS)` (R149). -/
def doneAwait (s : State) : Act := .ok { s with cresult := .success, cmode := .idle }

/-- AWAIT_EQ's accept: the first byte polled decides (R144). -/
def acceptEq (b : Byte) (s : State) : Act :=
  if b = s.cexp then doneAwait { s with cidx := 1 } else failAwait .wrongByte { s with cidx := 1 }

/-- AWAIT_ACK's accept: any byte other than 0x01 is a NACK (R145). -/
def acceptAck (b : Byte) (s : State) : Act :=
  if b = Config.genAckByte then doneAwait { s with cidx := 1 }
  else failAwait .nack { s with cidx := 1 }

/-- AWAIT_COUNT's accept: the byte is discarded (R146). -/
def acceptCount (s : State) : Act :=
  if s.cidx + 1 = s.cneed then doneAwait { s with cidx := s.cidx + 1 }
  else .hold { s with cidx := s.cidx + 1 }

/-- The length field of a read response, complete after byte 8: BAD_LENGTH is tested before
LEN_MISMATCH (R147, R148). -/
def checkLength (s : State) : Act :=
  if s.cshape = .read ∧ s.cidx = Config.hdrLen then
    let len := Codec.rd16 (s.rxbuf.read 6) (s.rxbuf.read 7)
    if Config.chunkMax < len.toNat then failAwait .badLength s
    else if len ≠ s.chunkLen then failAwait .lenMismatch s
    else .ok { s with cneed := Config.hdrLen + len.toNat + 1 }
  else .ok s

/-- The end of a frame: the trailer is checked when the whole frame has arrived (R147). -/
def checkEnd (s : State) : Act :=
  if s.cidx = s.cneed then (validateRx s.cneed s).andThen doneAwait else .hold s

/-- AWAIT_FRAME's accept: the checks in byte order (R147, R148). -/
def acceptFrame (b : Byte) (s : State) : Act :=
  if Config.bufLen ≤ s.cidx then .stop .rxbufIndex
  else
    let s1 := { s with rxbuf := Memory.write s.cidx b s.rxbuf, cidx := s.cidx + 1 }
    if s.cidx = 0 ∧ b ≠ s.cfg.raw.marker then failAwait .badMarker s1
    else if s.cidx = 1 ∧ b ≠ Config.statusOk then failAwait .badStatus s1
    else (checkLength s1).andThen checkEnd

/-- The accept of the active mode (R144 to R147). IDLE accepts nothing: the collect step runs only
while the collector is active. -/
def accept (b : Byte) (s : State) : Act :=
  match s.cmode with
  | .idle => .hold s
  | .eq => acceptEq b s
  | .ack => acceptAck b s
  | .count => acceptCount s
  | .frame => acceptFrame b s

/-- What a poll answers (R133): an error at any time, the head of `rxq` when there is one, NoData when
there is none. The other answers are not legal (I17). -/
inductive Polled where
  | byte (b : Byte) (s : State)
  | noData
  | err
  | illegal

/-- POLL (R133): a byte leaves the queue. -/
def pollCall (s : State) : Polled :=
  match s.ans.poll, s.rxq with
  | .err, _ => .err
  | .byte, b :: q => .byte b { s.log (.poll (.byte b)) with rxq := q }
  | .noData, [] => .noData
  | .byte, [] => .illegal
  | .noData, _ :: _ => .illegal

/-- The collect step (R143): one POLL; the deadline is tested only after a poll that brought no byte, and
a NoData that does not end the await is not recorded. -/
def collect (s : State) : Act :=
  match pollCall s with
  | .err => failAwait .readFail (s.log (.poll .err))
  | .noData =>
    if s.ctimeout ≤ s.now - s.t0 then failAwait s.cmode.timeoutCause (s.log (.poll .noData))
    else .hold s
  | .byte b s' => accept b s'
  | .illegal => .refuse .pollAnswerIllegal

/-! ## Commit of a chunk -/

/-- After a committed chunk the counters and the working registers advance by its length (R160, R201,
R203). -/
def State.commitChunk (s : State) : State :=
  { s with
    chunks := s.chunks + 1
    xfer := s.xfer + s.chunkLen.setWidth 32
    curAddr := s.curAddr + s.chunkLen.setWidth 32
    remaining := s.remaining - s.chunkLen.setWidth 32 }

/-! ## Reset -/

/-- The reset input (R270, R271): every piece of state to its reset value at once, and a Reset event.
`now` is not reset (R48), the configuration never changes (R20); what left the block (the TX wire, the
sink) and the model's schedule are not the block's to reset. -/
def State.applyReset (s : State) : State :=
  { State.resetWith s.cfg with
    now := s.now
    hist := [.reset]
    txwire := s.txwire
    sink := s.sink
    rdata := s.rdata
    ans := s.ans
    inputs := s.inputs
    draws := s.draws }

end Sys2Proof.Machine
end

