-- ==== Sys2Proof/Machine/Checksum.lean ====
section
/-!
DEFINITION. The checksum codec (R121 to R123).
-/

namespace Sys2Proof.Machine

/-- CHECKSUM (R121): pure; the value it returns is kept in the model's own `sumOut`. -/
def execChecksum (bs : List Byte) (s : State) : Out := .next { s with sumOut := Codec.sum8 bs }

/-- CHECKSUM_STAMP (R122). -/
def execChecksumStamp (n : Nat) (s : State) : Out := (stampTx n s).settle s.step id

/-- CHECKSUM_VALIDATE (R123). -/
def execChecksumValidate (n : Nat) (s : State) : Out := (validateRx n s).settle s.step id

end Sys2Proof.Machine
end

