-- ==== Sys2Proof/Machine/Collector.lean ====
section
/-!
DEFINITION. The byte collector's four modes (R142 to R149). The code of a mode stands in `cmode`; its
operands stand in `cexp`, `cshape`, `cneed` and `ctimeout`.
-/

namespace Sys2Proof.Machine

/-- An await: its entry when the collector is not in the mode, else one collect step; a completed await
lets the sequencer go on at the step after it (R142, R143, R149). -/
def runAwait (m : CMode) (s : State) : Out :=
  if s.cmode = m then (collect s).settle s.step (State.finishAwait s.step)
  else .next (s.enterAwait m s.ctimeout)

/-- AWAIT_EQ (R144). -/
def execAwaitEq (s : State) : Out := runAwait .eq s

/-- AWAIT_ACK (R145). -/
def execAwaitAck (s : State) : Out := runAwait .ack s

/-- AWAIT_COUNT (R146). -/
def execAwaitCount (s : State) : Out := runAwait .count s

/-- AWAIT_FRAME (R147). -/
def execAwaitFrame (s : State) : Out := runAwait .frame s

end Sys2Proof.Machine
end

