-- ==== Sys2Proof/Machine/Frames.lean ====
section
/-!
DEFINITION. The command builders (R162 to R165): each writes `txbuf[0..txlen)` and nothing else.
-/

namespace Sys2Proof.Machine

/-- BUILD_READ(a, n) (R162). -/
def execCmdRead (a : Word) (n : Half) (s : State) : Out :=
  (buildTx (Codec.readBody s.cfg a n) s).settle s.step id

/-- BUILD_WRITE(a, d) (R163). -/
def execCmdWrite (a : Word) (d : List Byte) (s : State) : Out :=
  (buildWrite a d s).settle s.step id

/-- BUILD_ERASE_ALL (R164). -/
def execCmdEraseAll (s : State) : Out :=
  (buildTx (Codec.eraseAllBody s.cfg) s).settle s.step id

/-- BUILD_ERASE_SECTOR(t) (R165). -/
def execCmdEraseSector (t : Word) (s : State) : Out :=
  (buildTx (Codec.eraseSectorBody s.cfg t) s).settle s.step id

end Sys2Proof.Machine
end

