-- ==== Sys2Proof/Machine/Received.lean ====
section
/-!
DEFINITION. What the Peer sends (R11, R95, R96, R98, R99, R101): its bytes join the tail of `rxq`, where
only `Poll` sees them (R45). Whether the engine accepts them is the collector's business (R144 to R147).
-/

namespace Sys2Proof.Machine

/-- RSP_READ (R95): the Peer sends the whole frame. -/
def execRspRead (echo : Word) (d : List Byte) (s : State) : Out :=
  .next (s.receive (Codec.stamped (Codec.rspReadBody s.cfg echo d)))

/-- RSP_ACK9 (R96): the Peer sends the whole frame. -/
def execRspAck9 (r2 r3 r4 r5 r6 r7 : Byte) (s : State) : Out :=
  .next (s.receive (Codec.stamped (Codec.rspAck9Body s.cfg r2 r3 r4 r5 r6 r7)))

/-- HS_ACK (R98): the Peer sends 0x11. -/
def execHsAck (s : State) : Out := .next (s.receive [Config.hsAckByte])

/-- GEN_ACK (R99): the Peer sends 0x01. -/
def execGenAck (s : State) : Out := .next (s.receive [Config.genAckByte])

/-- EXEC_STREAM (R101): the booted loader streams its bytes. -/
def execExecStream (bs : List Byte) (s : State) : Out := .next (s.receive bs)

end Sys2Proof.Machine
end

