-- ==== Sys2Proof/Machine/Requests.lean ====
section
/-!
DEFINITION. The host requests (R87) and START (R193). A request is the content of the request registers
at the write of CTRL.START, so its meaning is START with that request.
-/

namespace Sys2Proof.Machine

/-- REQ_CONNECT_ONLY: a session that stops after the handshake (R87, R193, R197). -/
def execReqConnectOnly (s : State) : Out := .next (s.start .connectOnly)

/-- REQ_READ (R87, R193). -/
def execReqRead (s : State) : Out := .next (s.start .read)

/-- REQ_WRITE (R87, R193). -/
def execReqWrite (s : State) : Out := .next (s.start .write)

/-- REQ_ERASE (R87, R193). -/
def execReqErase (s : State) : Out := .next (s.start .erase)

/-- SEQ_START: START with the request REQ_OP holds (R193). -/
def execSeqStart (s : State) : Out := .next (s.start (Codec.opOfCode s.reqOp))

end Sys2Proof.Machine
end

