-- ==== Sys2Proof/Machine/Sequencer.lean ====
section
/-!
DEFINITION. The sequencer's stages (R194 to R206). The operand of a stage is the value of the step
register; each step is one engine action (R192).
-/

namespace Sys2Proof.Machine

/-- A step whose action completes goes on at its successor, and fails at itself (R192, R207). -/
def seqStep (st : SeqStep) (a : Act) : Out := a.settle st (State.advance st)

/-- An await step: entry while the collector is idle, else one collect step (R142, R143). -/
def seqAwait (st : SeqStep) (enter : State → State) (s : State) : Out :=
  if s.cmode = .idle then .next (enter s) else (collect s).settle st (State.finishAwait st)

/-- Entry of AWAIT_FRAME(shape, T) (R142, R147). -/
def State.enterFrame (sh : Shape) (budget : Nat) (s : State) : State :=
  { s with cshape := sh }.enterAwait .frame budget

/-- SEQ_RANGE, the region check (R194): the sum does not wrap, CONNECT_ONLY is not checked, and no call
is made. -/
def execSeqRange (s : State) : Out :=
  seqStep .range
    (if (s.op = .read ∨ s.op = .write) ∧ Config.capacity < s.addr0.toNat + s.len0.toNat then
      .fail .region s
    else if s.op = .erase ∧ Config.capacity ≤ s.addr0.toNat then .fail .sector s
    else .ok s)

/-- SEQ_HANDSHAKE (R196). -/
def execSeqHandshake (h : HsStep) (s : State) : Out :=
  match h with
  | .assert => seqStep (.hs .assert) (.ok (ctlAssertCall s))
  | .powerWait => seqStep (.hs .powerWait) (waitCall .pdelay s)
  | .train => seqStep (.hs .train) (txSend .training s)
  | .release => seqStep (.hs .release) (.ok (ctlReleaseCall s))
  | .await =>
    seqAwait (.hs .await)
      (fun s => { s with cexp := Config.hsAckByte }.enterAwait .eq s.cfg.raw.tHsAck) s
  | .settle => seqStep (.hs .settle) (waitCall .hsSettle s)
  | .flush => seqStep (.hs .flush) (.ok { flushCall s with session := .connected })

/-- SEQ_LOADER (R198): three gated transfers, then the final settle delay (R199). -/
def execSeqLoader (l : LdStep) (s : State) : Out :=
  match l with
  | .announceTx => seqStep (.ld .announceTx) (txSend .announce s)
  | .announceAwait =>
    seqAwait (.ld .announceAwait) (fun s => s.enterAwait .ack s.cfg.raw.tAnnounce) s
  | .preUpload => seqStep (.ld .preUpload) (waitCall .preUpload s)
  | .uploadTx => seqStep (.ld .uploadTx) (txSend .loader s)
  | .uploadAwait => seqAwait (.ld .uploadAwait) (fun s => s.enterAwait .ack s.cfg.raw.tUpload) s
  | .preExec => seqStep (.ld .preExec) (waitCall .preExec s)
  | .execTx => seqStep (.ld .execTx) (txSend .execute s)
  | .execAwait => seqAwait (.ld .execAwait) (fun s => s.enterAwait .count s.cfg.raw.tExec) s
  | .final =>
    seqStep (.ld .final)
      ((waitCall .final s).andThen fun s => .ok { s with session := .ready })

/-- SEQ_DISPATCH (R200). -/
def execSeqDispatch (s : State) : Out :=
  seqStep .opDispatch
    (match s.op with
    | .connectOnly => .stop .dispatchConnectOnly
    | .read => .ok { s with session := .reading, curAddr := s.addr0, remaining := s.len0 }
    | .write => .ok { s with session := .writing, curAddr := s.addr0, remaining := s.len0 }
    | .erase => .ok { s with session := .erasing })

/-- SEQ_READ_CHUNK (R201). -/
def execSeqReadChunk (r : RdStep) (s : State) : Out :=
  match r with
  | .next =>
    seqStep (.rd .next)
      (if s.remaining = 0 then .ok s
      else
        buildTx (Codec.readBody s.cfg s.curAddr s.nextChunkLen) { s with chunkLen := s.nextChunkLen })
  | .settle => seqStep (.rd .settle) (waitCall .chunkSettle s)
  | .tx => seqStep (.rd .tx) (txSend .frame s)
  | .await => seqAwait (.rd .await) (fun s => s.enterFrame .read s.cfg.raw.tFrameRead) s
  | .commit => seqStep (.rd .commit) ((sinkCall s).andThen fun s => .ok s.commitChunk)

/-- WR_SRC: one image byte goes to `txbuf[8 + widx]`; End and err are failures (R203). -/
def srcStep (s : State) : Act :=
  match s.ans.src with
  | .byte b =>
    (storeTx (Config.hdrLen + s.widx) [b] (s.log (.srcRead (.byte b)))).andThen fun s =>
      .ok { s with widx := s.widx + 1 }
  | .finished => .fail .srcShort (s.log (.srcRead .finished))
  | .err => .fail .srcFail (s.log (.srcRead .err))

/-- SEQ_WRITE_CHUNK (R203). -/
def execSeqWriteChunk (w : WrStep) (s : State) : Out :=
  match w with
  | .next =>
    seqStep (.wr .next)
      (.ok (if s.remaining = 0 then s else { s with chunkLen := s.nextChunkLen, widx := 0 }))
  | .src => seqStep (.wr .src) (srcStep s)
  | .build => seqStep (.wr .build) (buildWrite s.curAddr s.imageBytes s)
  | .settle => seqStep (.wr .settle) (waitCall .chunkSettle s)
  | .tx => seqStep (.wr .tx) (txSend .frame s)
  | .await => seqAwait (.wr .await) (fun s => s.enterFrame .ack9 s.cfg.raw.tFrameWrite) s
  | .commit => seqStep (.wr .commit) (.ok s.commitChunk)

/-- SEQ_ERASE (R205): target 0 selects chip erase (R166). -/
def execSeqErase (e : ErStep) (s : State) : Out :=
  match e with
  | .build =>
    seqStep (.er .build)
      (if s.addr0 = 0 then buildTx (Codec.eraseAllBody s.cfg) s
      else buildTx (Codec.eraseSectorBody s.cfg s.addr0) s)
  | .settle => seqStep (.er .settle) (waitCall .chunkSettle s)
  | .tx => seqStep (.er .tx) (txSend .frame s)
  | .await => seqAwait (.er .await) (fun s => s.enterFrame .ack9 s.cfg.raw.tFrameErase) s
  | .commit => seqStep (.er .commit) (.ok { s with chunks := 1 })

/-- SEQ_TEARDOWN (R206): raises nothing, and FINISH ends the session (R250). -/
def execSeqTeardown (t : TdStep) (s : State) : Out :=
  match t with
  | .close => seqStep (.td .close) (.ok (closeCall s))
  | .stream => seqStep (.td .stream) (.ok (streamCloseCall s))
  | .finish => seqStep (.td .finish) (.ok s.endSession)

end Sys2Proof.Machine
end

