-- ==== Sys2Proof/Machine/Transmit.lean ====
section
/-!
DEFINITION. What the engine sends: TXWRITE (R132) and the constant tables (R97, R100), each passed whole
in one call (R70).
-/

namespace Sys2Proof.Machine

/-- TXWRITE(s) (R132). -/
def execTxwrite (src : TxSrc) (s : State) : Out := (txSend src s).settle s.step id

/-- HS_TRAINING (R97): TXWRITE of the training pattern. -/
def execHsTraining (s : State) : Out := (txSend .training s).settle s.step id

/-- ANNOUNCE_CMD (R100): TXWRITE of the asset, verbatim. -/
def execAnnounceCmd (s : State) : Out := (txSend .announce s).settle s.step id

/-- LOADER_BIN (R100): TXWRITE of the asset, verbatim. -/
def execLoaderBin (s : State) : Out := (txSend .loader s).settle s.step id

/-- EXECUTE_CMD (R100): TXWRITE of the asset, verbatim. -/
def execExecuteCmd (s : State) : Out := (txSend .execute s).settle s.step id

end Sys2Proof.Machine
end

