-- ==== Sys2Proof/Machine/Transport.lean ====
section
/-!
DEFINITION. The engine's calls on the Transport and on the image stream, and WAIT (R131, R133 to R141).
-/

namespace Sys2Proof.Machine

/-- OPEN (R131); at the OPEN step an ok goes on to HS_ASSERT (R195). -/
def execOpenPort (s : State) : Out :=
  (openCall s).settle s.step fun s' => if s.step = .openPort then s'.advance .openPort else s'

/-- POLL (R133): the answer itself; the failure on err and the deadline are the caller's (R143). -/
def execPoll (s : State) : Out :=
  match pollCall s with
  | .byte _ s' => .next s'
  | .noData => .next s
  | .err => .next (s.log (.poll .err))
  | .illegal => .refused .pollAnswerIllegal

/-- FLUSH (R134). -/
def execFlush (s : State) : Out := .next (flushCall s)

/-- CTL_ASSERT (R135). -/
def execCtlAssert (s : State) : Out := .next (ctlAssertCall s)

/-- CTL_RELEASE (R136). -/
def execCtlRelease (s : State) : Out := .next (ctlReleaseCall s)

/-- CLOSE (R137). -/
def execClose (s : State) : Out := .next (closeCall s)

/-- SRC_READ (R138): the answer itself; the byte and the failures are the caller's (R203). -/
def execSrcRead (s : State) : Out := .next (s.log (.srcRead s.ans.src))

/-- SINK_WRITE (R139). -/
def execSinkWrite (s : State) : Out := (sinkCall s).settle s.step id

/-- STREAM_CLOSE (R140). -/
def execStreamClose (s : State) : Out := .next (streamCloseCall s)

/-- WAIT(T) (R141). -/
def execWait (t : WaitArg) (s : State) : Out := (waitCall t s).settle s.step id

end Sys2Proof.Machine
end

