-- ==== Sys2Proof/Machine/Dispatch.lean ====
section
/-!
DEFINITION. One arm per row of spec/opcode_table.json, in the table's order.
-/

namespace Sys2Proof.Machine

def exec (i : Instr) (s : State) : Host.Outcome State Fault Refusal :=
  match i with
  | .reqConnectOnly => Sys2Proof.Machine.execReqConnectOnly s
  | .reqRead => Sys2Proof.Machine.execReqRead s
  | .reqWrite => Sys2Proof.Machine.execReqWrite s
  | .reqErase => Sys2Proof.Machine.execReqErase s
  | .cmdRead a n => Sys2Proof.Machine.execCmdRead a n s
  | .cmdWrite a d => Sys2Proof.Machine.execCmdWrite a d s
  | .cmdEraseAll => Sys2Proof.Machine.execCmdEraseAll s
  | .cmdEraseSector t => Sys2Proof.Machine.execCmdEraseSector t s
  | .rspRead echo d => Sys2Proof.Machine.execRspRead echo d s
  | .rspAck9 r2 r3 r4 r5 r6 r7 => Sys2Proof.Machine.execRspAck9 r2 r3 r4 r5 r6 r7 s
  | .hsTraining => Sys2Proof.Machine.execHsTraining s
  | .hsAck => Sys2Proof.Machine.execHsAck s
  | .genAck => Sys2Proof.Machine.execGenAck s
  | .execStream bs => Sys2Proof.Machine.execExecStream bs s
  | .announceCmd => Sys2Proof.Machine.execAnnounceCmd s
  | .loaderBin => Sys2Proof.Machine.execLoaderBin s
  | .executeCmd => Sys2Proof.Machine.execExecuteCmd s
  | .checksum bs => Sys2Proof.Machine.execChecksum bs s
  | .checksumStamp n => Sys2Proof.Machine.execChecksumStamp n s
  | .checksumValidate n => Sys2Proof.Machine.execChecksumValidate n s
  | .awaitEq => Sys2Proof.Machine.execAwaitEq s
  | .awaitAck => Sys2Proof.Machine.execAwaitAck s
  | .awaitCount => Sys2Proof.Machine.execAwaitCount s
  | .awaitFrame => Sys2Proof.Machine.execAwaitFrame s
  | .openPort => Sys2Proof.Machine.execOpenPort s
  | .txwrite src => Sys2Proof.Machine.execTxwrite src s
  | .poll => Sys2Proof.Machine.execPoll s
  | .flush => Sys2Proof.Machine.execFlush s
  | .ctlAssert => Sys2Proof.Machine.execCtlAssert s
  | .ctlRelease => Sys2Proof.Machine.execCtlRelease s
  | .close => Sys2Proof.Machine.execClose s
  | .srcRead => Sys2Proof.Machine.execSrcRead s
  | .sinkWrite => Sys2Proof.Machine.execSinkWrite s
  | .streamClose => Sys2Proof.Machine.execStreamClose s
  | .wait t => Sys2Proof.Machine.execWait t s
  | .seqStart => Sys2Proof.Machine.execSeqStart s
  | .seqRange => Sys2Proof.Machine.execSeqRange s
  | .seqHandshake h => Sys2Proof.Machine.execSeqHandshake h s
  | .seqLoader l => Sys2Proof.Machine.execSeqLoader l s
  | .seqDispatch => Sys2Proof.Machine.execSeqDispatch s
  | .seqReadChunk r => Sys2Proof.Machine.execSeqReadChunk r s
  | .seqWriteChunk w => Sys2Proof.Machine.execSeqWriteChunk w s
  | .seqErase e => Sys2Proof.Machine.execSeqErase e s
  | .seqTeardown t => Sys2Proof.Machine.execSeqTeardown t s

end Sys2Proof.Machine
end

