-- ==== Sys2Proof/Machine/Fetch.lean ====
section
/-!
DEFINITION. Where an instruction stands before it runs. The block fetches no program (R2, R68): a request
stands in the request registers until START (R87), a received frame is what the Peer sends (R11), and
the engine's own next action stands in the collector mode register while an await runs (R143), else in
the step register (R40, R192).
-/

namespace Sys2Proof.Machine

/-- The request that START would run: the content of REQ_OP (R87). -/
def State.requestCode (s : State) : Code := .request (s.hostReg 0)

/-- The Peer's bytes as the collector would read them: a frame in the awaited shape, the execute stream,
or a single-byte answer (R102). -/
def State.receivedCode (s : State) (bs : List Byte) : Code :=
  match s.cmode with
  | .idle | .eq | .ack => .reply bs
  | .count => .stream bs
  | .frame => .response s.cshape bs

/-- The engine's next action: none at IDLE (R192), the active await (R143), or the step (R40). -/
def State.engineCode (s : State) : Option Code :=
  if s.step = .idle then none
  else if s.cmode = .idle then some (.stage s.step)
  else some (.mode s.cmode.code)

/-- The answers under which an engine step placed by `placed` runs: a legal poll answer for the queue,
and every other call answered well. -/
def State.plainAnswers (s : State) : Config.Answers :=
  { openOk := true
    tx := .err
    wireOnErr := 0
    poll := if s.rxq = [] then .noData else .byte
    closeOk := true
    src := .finished
    sinkOk := true
    sinkOnErr := [] }

/-- Schedule a move before all others. -/
def State.schedule (t : Config.Turn) (s : State) : State := { s with inputs := t :: s.inputs }

/-- Schedule the host write that sets CTRL.START, with a request in REQ_OP (R87, R193). -/
def State.placeRequest (op : Op) (s : State) : State :=
  { s with reqOp := Codec.opCode op }.schedule (.hostWrite ctrlReg 1)

/-- Put the engine at a step with the collector idle, and schedule the engine. -/
def State.placeStep (st : SeqStep) (s : State) : State :=
  { s with step := st, cmode := .idle }.schedule (.engine s.plainAnswers)

/-- Put the collector into a mode at an await step of that mode, and schedule the engine. -/
def State.placeMode (st : SeqStep) (m : CMode) (s : State) : State :=
  { s with step := st, cmode := m }.schedule (.engine s.plainAnswers)

/-- Place an instruction where the next step fetches it. A builder, a checksum primitive and an engine
call other than OPEN have no place of their own: they run inside the stage that issues them, and the
state is left as it is. -/
def State.placed (s : State) : Instr → State
  | .reqConnectOnly => s.placeRequest .connectOnly
  | .reqRead => s.placeRequest .read
  | .reqWrite => s.placeRequest .write
  | .reqErase => s.placeRequest .erase
  | .seqStart => s.placeRequest (Codec.opOfCode s.reqOp)
  | .rspRead echo d =>
    { s with cmode := .frame, cshape := .read }.schedule
      (.peer (Codec.stamped (Codec.rspReadBody s.cfg echo d)))
  | .rspAck9 r2 r3 r4 r5 r6 r7 =>
    { s with cmode := .frame, cshape := .ack9 }.schedule
      (.peer (Codec.stamped (Codec.rspAck9Body s.cfg r2 r3 r4 r5 r6 r7)))
  | .hsAck => s.schedule (.peer [Config.hsAckByte])
  | .genAck => s.schedule (.peer [Config.genAckByte])
  | .execStream bs => { s with cmode := .count }.schedule (.peer bs)
  | .awaitEq => s.placeMode (.hs .await) .eq
  | .awaitAck => s.placeMode (.ld .announceAwait) .ack
  | .awaitCount => s.placeMode (.ld .execAwait) .count
  | .awaitFrame => s.placeMode (if s.cshape = .read then .rd .await else .wr .await) .frame
  | .openPort => s.placeStep .openPort
  | .seqRange => s.placeStep .range
  | .seqHandshake h => s.placeStep (.hs h)
  | .seqLoader l => s.placeStep (.ld l)
  | .seqDispatch => s.placeStep .opDispatch
  | .seqReadChunk r => s.placeStep (.rd r)
  | .seqWriteChunk w => s.placeStep (.wr w)
  | .seqErase e => s.placeStep (.er e)
  | .seqTeardown t => s.placeStep (.td t)
  | .cmdRead _ _ | .cmdWrite _ _ | .cmdEraseAll | .cmdEraseSector _
  | .hsTraining | .announceCmd | .loaderBin | .executeCmd
  | .checksum _ | .checksumStamp _ | .checksumValidate _
  | .txwrite _ | .poll | .flush | .ctlAssert | .ctlRelease | .close | .srcRead | .sinkWrite
  | .streamClose | .wait _ => s

/-- The state in which the next step fetches the instruction of a table word. -/
def State.placedWord (s : State) (nbits w : Nat) : State :=
  match decodeTableWord nbits w with
  | some i => s.placed i
  | none => s

end Sys2Proof.Machine
end

