-- ==== Sys2Proof/Machine/Turn.lean ====
section
/-!
DEFINITION. One move of one agent (R10): the Engine's step (R192), a host access (R22 to R34), the Peer
(R11), the Clock (R48), the reset input (R270); and which agent moves.
-/

namespace Sys2Proof.Machine

/-- Run the instruction a code stands for; a code that is none has no effect of its own. -/
def runCode (k : Code) (otherwise : State → State) (s : State) : Out :=
  match decode s.cfg k with
  | .ok i => exec i s
  | .error _ => .next (otherwise s)

/-- One engine step: the action that `cmode` or `step` names; at IDLE the engine has none (R192). -/
def engineStep (s : State) : Out :=
  match s.engineCode with
  | none => .next s
  | some k => runCode k id s

/-- A host write: START runs the request that REQ_OP holds (R27, R87); any other write is a store. -/
def hostWriteStep (n : Nat) (v : Word) (s : State) : Out :=
  if n = ctrlReg ∧ v.getLsbD 0 then runCode s.requestCode id s else .next (s.hostStore n v)

/-- One move of one agent (R10). -/
def runTurn (t : Config.Turn) (s : State) : Out :=
  match t with
  | .engine a => engineStep { s with ans := a }
  | .hostWrite n v => hostWriteStep n v s
  | .hostRead n => .next { s with rdata := s.hostReg n }
  | .peer bs => runCode (s.receivedCode bs) (State.receive bs) s
  | .clock => .next { s with now := s.now + 1 }
  | .rst => .next s.applyReset

/-- The move that comes next, and the state once it is taken off the schedule: the first scheduled move,
or, when none is scheduled, a free draw. Moves are scheduled finitely far ahead, and the draws tick
infinitely often, so the Clock is weakly fair (R12). -/
def State.nextTurn (s : State) : Config.Turn × State :=
  match s.inputs with
  | t :: ts => (t, { s with inputs := ts })
  | [] => (Config.draw s.draws, { s with draws := s.draws + 1 })

/-- One step of the machine: the next agent moves. -/
def runNext (s : State) : Out := runTurn s.nextTurn.1 s.nextTurn.2

end Sys2Proof.Machine
end

