-- ==== Sys2Proof/Machine/Step.lean ====
section
/-!
DEFINITION. The step of the machine, and placing a table word where the step fetches.
-/

namespace Sys2Proof.Machine

/-- One step: the agent whose turn it is moves (R10). -/
def step (s : State) : Host.Outcome State Fault Refusal := runNext s

/-- `s` with a table word where `step` fetches its next instruction. -/
def State.withFetchWord (s : State) (nbits w : Nat) : State := s.placedWord nbits w

end Sys2Proof.Machine
end

