-- ==== Sys2Proof/Machine/Chunks.lean ====
section
/-!
DEFINITION. CHUNK_SPLIT (R160) and the host's request notation (R106, R107).
-/

namespace Sys2Proof.Machine

/-- The number of chunks of an n-byte transfer: `ceil(n / 0x200)` (R160). -/
def chunkCount (n : Nat) : Nat := (n + (Config.chunkMax - 1)) / Config.chunkMax

/-- CHUNK_SPLIT: chunk k starts at `a + 0x200*k` and has length `min(0x200, n - 0x200*k)` (R160). -/
def chunkSplit (a n : Nat) : List (Nat × Nat) :=
  (List.range (chunkCount n)).map fun k =>
    (a + Config.chunkMax * k, min Config.chunkMax (n - Config.chunkMax * k))

/-- A request in the notation of R106: `CONNECT pd`, `READ a, n, pd`, `WRITE a, n, pd`, `ERASE t, pd`. -/
structure Request where
  op : Op
  addr : Word
  len : Word
  pd : Word
deriving DecidableEq, Repr

/-- What a request stands for: writing REQ_OP, REQ_ADDR, REQ_LEN, PWR_DELAY, then CTRL.START = 1
(R106). -/
def Request.writes (r : Request) : List Config.Turn :=
  [.hostWrite 0 ((Codec.opCode r.op).setWidth 32), .hostWrite 1 r.addr, .hostWrite 2 r.len,
    .hostWrite 3 r.pd, .hostWrite ctrlReg 1]

/-- `ERASE_CHIP pd` = `ERASE 0, pd` (R107). The notation gives REQ_LEN no value, and an ERASE ignores it (R25);
the model writes 0, by its own choice (log entry 40). -/
def Request.eraseChip (pd : Word) : Request := ⟨.erase, 0, 0, pd⟩

/-- `ERASE_SECTOR a, pd` = `ERASE a, pd`, only for a ≠ 0 (R107, R76). REQ_LEN is written 0, by the model's own
choice (log entry 40). -/
def Request.eraseSector? (a pd : Word) : Option Request :=
  if a = 0 then none else some ⟨.erase, a, 0, pd⟩

/-- `PROGRAM a, n, pd` = `ERASE_CHIP pd`, then `WRITE a, n, pd` (R107). -/
def Request.program (a n pd : Word) : List Request := [Request.eraseChip pd, ⟨.write, a, n, pd⟩]

/-- `VERIFY a, n, pd` = `READ a, n, pd`; the comparison with the image is the host's (R107). -/
def Request.verify (a n pd : Word) : Request := ⟨.read, a, n, pd⟩

/-- The host-side comparison of VERIFY: what the sink holds against the image (R107). -/
def State.sinkMatches (s : State) (image : List Byte) : Bool := s.sink == image

end Sys2Proof.Machine
end

