-- ==== Sys2Proof/Machine/Runs.lean ====
section
/-!
DEFINITION. Infinite executions and their fairness (R12, R150). A step's own free moves are fair by
`Config.draws`; here the agents' moves are any sequence, with fairness as a predicate on it.
-/

namespace Sys2Proof.Machine

/-- `τ` is the infinite execution in which the agents make the moves `σ`, one a step (R10). -/
def Execution (σ : Nat → Config.Turn) (τ : Nat → State) : Prop :=
  ∀ n, step ((τ n).schedule (σ n)) = .next (τ (n + 1))

/-- The Clock is weakly fair: it ticks infinitely often (R12). -/
def ClockFair (σ : Nat → Config.Turn) : Prop := ∀ n, ∃ m, n ≤ m ∧ σ m = .clock

/-- The Engine moves, and the Transport answers the call it then makes, infinitely often (R150). -/
def EngineFair (σ : Nat → Config.Turn) : Prop := ∀ n, ∃ m a, n ≤ m ∧ σ m = .engine a

end Sys2Proof.Machine
end

