-- ==== Sys2Proof/Safety.lean ====
section
/-!
DEFINITION. What the rules promise of every state a session can be in: the parts of the invariant, and
the invariant itself. Nothing here is part of a step.
-/

namespace Sys2Proof

/-- A session runs and has not reached teardown. -/
def SeqStep.working : SeqStep → Bool
  | .idle | .td _ => false
  | _ => true

/-- The steps at which the port is open (R131, R206). -/
def SeqStep.portHeld : SeqStep → Bool
  | .idle | .range | .openPort | .td _ => false
  | _ => true

/-- The steps at which a chunk of a READ or WRITE is in flight (R38, R201, R203). -/
def SeqStep.inChunk : SeqStep → Bool
  | .rd .next | .wr .next => false
  | .rd _ | .wr _ => true
  | _ => false

/-- The steps of a READ or WRITE (R201, R203). -/
def SeqStep.transferring : SeqStep → Bool
  | .rd _ | .wr _ => true
  | _ => false

/-- The WAIT steps (R196 to R205). -/
def SeqStep.waits : SeqStep → Bool
  | .hs .powerWait | .hs .settle | .ld .preUpload | .ld .preExec | .ld .final => true
  | .rd .settle | .wr .settle | .er .settle => true
  | _ => false

/-- The `TxWrite` calls a session has issued before a step, besides one per committed chunk (R211). -/
def SeqStep.sent : SeqStep → Nat
  | .idle | .range | .openPort | .hs .assert | .hs .powerWait | .hs .train | .td _ => 0
  | .hs _ | .ld .announceTx => 1
  | .ld .announceAwait | .ld .preUpload | .ld .uploadTx => 2
  | .ld .uploadAwait | .ld .preExec | .ld .execTx => 3
  | .rd .await | .rd .commit | .wr .await | .wr .commit | .er .await | .er .commit => 5
  | .ld _ | .opDispatch | .rd _ | .wr _ | .er _ => 4

/-- The session state at a working step (R29, R193, R196, R198 to R200). -/
def SeqStep.sessionAt : SeqStep → Machine.Session
  | .idle | .range | .openPort | .hs _ | .td _ => .disconnected
  | .ld .final => .loaderInstalled
  | .ld _ => .connected
  | .opDispatch => .ready
  | .rd _ => .reading
  | .wr _ => .writing
  | .er _ => .erasing

/-- The successors that R207's table lists for a step. The choice among several is by `op`, `remaining` or
`widx`, as the table says. -/
def SeqStep.nexts : SeqStep → List SeqStep
  | .idle => [.range]
  | .range => [.openPort]
  | .openPort => [.hs .assert]
  | .hs .assert => [.hs .powerWait]
  | .hs .powerWait => [.hs .train]
  | .hs .train => [.hs .release]
  | .hs .release => [.hs .await]
  | .hs .await => [.hs .settle]
  | .hs .settle => [.hs .flush]
  | .hs .flush => [.td .close, .ld .announceTx]
  | .ld .announceTx => [.ld .announceAwait]
  | .ld .announceAwait => [.ld .preUpload]
  | .ld .preUpload => [.ld .uploadTx]
  | .ld .uploadTx => [.ld .uploadAwait]
  | .ld .uploadAwait => [.ld .preExec]
  | .ld .preExec => [.ld .execTx]
  | .ld .execTx => [.ld .execAwait]
  | .ld .execAwait => [.ld .final]
  | .ld .final => [.opDispatch]
  | .opDispatch => [.rd .next, .wr .next, .er .build]
  | .rd .next => [.td .close, .rd .settle]
  | .rd .settle => [.rd .tx]
  | .rd .tx => [.rd .await]
  | .rd .await => [.rd .commit]
  | .rd .commit => [.rd .next]
  | .wr .next => [.td .close, .wr .src]
  | .wr .src => [.wr .src, .wr .build]
  | .wr .build => [.wr .settle]
  | .wr .settle => [.wr .tx]
  | .wr .tx => [.wr .await]
  | .wr .await => [.wr .commit]
  | .wr .commit => [.wr .next]
  | .er .build => [.er .settle]
  | .er .settle => [.er .tx]
  | .er .tx => [.er .await]
  | .er .await => [.er .commit]
  | .er .commit => [.td .close]
  | .td .close => [.td .stream]
  | .td .stream => [.td .finish]
  | .td .finish => [.idle]

end Sys2Proof

namespace Sys2Proof.Machine

/-- The arithmetic sum of a byte sequence, as R13 and R120 take it. -/
def byteSum (bs : List Byte) : Nat := (bs.map BitVec.toNat).sum

/-- A failure as R246 writes it, its KIND, STAGE and CAUSE given by their code numbers (R30, R241 to
R243). -/
def State.failedAt (kind stage cause : Nat) (s : State) : State :=
  { s with
    err := if s.failed then s.err else BitVec.ofNat 32 (kind + 16 * stage + 256 * cause)
    failed := true
    cmode := .idle
    step := .td .close }

/-- A failed await: the collector keeps the cause, and the failure is taken (R149, R246). -/
def State.awaitFailedAt (c : Cause) (kind stage cause : Nat) (s : State) : State :=
  State.failedAt kind stage cause { s with cresult := .fail c }

/-- A transmission as R132 counts and records it; `onWire` is what reached the wire. -/
def State.transmitted (bs onWire : List Byte) (s : State) : State :=
  { s with
    txcalls := s.txcalls + 1
    hist := s.hist ++ [.txWrite bs s.ans.tx]
    txwire := s.txwire ++ onWire }

/-- What R141 says of WAIT(T): `run` enters, holds while `now - t0 < T`, and goes on as `after` says once
`now - t0 >= T`. -/
def WaitsFor (run : State → Out) (ticks : State → Nat) (after : State → State) : Prop :=
  ∀ s : State,
    (s.waiting = false → run s = .next { s with t0 := s.now, waiting := true }) ∧
      (s.waiting = true → s.now - s.t0 < ticks s → run s = .next s) ∧
      (s.waiting = true → ticks s ≤ s.now - s.t0 → run s = .next (after { s with waiting := false }))

/-- The byte count that completes the active await: 1 for EQ and ACK, EXEC_COUNT for COUNT, 9 for ACK9, and for
READ the header, the chunk and the trailer (R101, R102, R142, R150). -/
def State.awaitLen (s : State) : Nat :=
  match s.cmode with
  | .idle => 0
  | .eq | .ack => 1
  | .count => Config.execCount
  | .frame =>
    match s.cshape with
    | .read => Config.hdrLen + s.chunkLen.toNat + 1
    | .ack9 => Config.ack9Len

/-- What R211 counts in a session that ended well, and what its sink then holds of a READ (R284). -/
def SessionCounts (s : State) : Prop :=
  match s.op with
  | .connectOnly => s.txcalls = 1 ∧ s.chunks = 0 ∧ s.xfer = 0
  | .erase => s.txcalls = 5 ∧ s.chunks = 1 ∧ s.xfer = 0
  | .read =>
    s.txcalls.toNat = 4 + (s.len0.toNat + 0x1FF) / 0x200 ∧
      s.chunks.toNat = (s.len0.toNat + 0x1FF) / 0x200 ∧ s.xfer = s.len0 ∧
      s.sink.length = s.len0.toNat
  | .write =>
    s.txcalls.toNat = 4 + (s.len0.toNat + 0x1FF) / 0x200 ∧
      s.chunks.toNat = (s.len0.toNat + 0x1FF) / 0x200 ∧ s.xfer = s.len0

/-- The command frame that a step is about to send, if it is one of the steps between a builder and its
TXWRITE (R201, R203, R205). -/
def State.builtFrame (s : State) : Option (List Byte) :=
  match s.step with
  | .rd .settle | .rd .tx => some (Codec.stamped (Codec.readBody s.cfg s.curAddr s.chunkLen))
  | .wr .settle | .wr .tx =>
    some (Codec.stamped (Codec.writeHeader s.cfg s.curAddr ++ s.imageBytes))
  | .er .settle | .er .tx =>
    if s.addr0 = 0 then some (Codec.stamped (Codec.eraseAllBody s.cfg))
    else some (Codec.stamped (Codec.eraseSectorBody s.cfg s.addr0))
  | _ => none

/-- The buffers keep their canonical form and their bounds (R44). -/
def BuffersOk (s : State) : Prop := s.txbuf.wf = true ∧ s.rxbuf.wf = true

/-- BUSY says whether a session runs; DONE and OK say how the last one ended (R28, R192, R206). -/
def FlagsOk (s : State) : Prop :=
  (s.busy = true ↔ s.step ≠ .idle) ∧ (s.done = true → s.busy = false) ∧
    (s.ok = true ↔ s.done = true ∧ s.failed = false)

/-- ERR holds the first failure and nothing else; after a failure only teardown runs (R30, R42, R244,
R246, R248). -/
def FailureOk (s : State) : Prop :=
  (s.failed = true ↔ s.err ≠ 0) ∧ legalErr s.op s.err ∧
    (s.failed = true → s.step.working = false)

/-- Every resource is held from its acquisition to its release in teardown (R46, R47, R206). -/
def ResourcesOk (s : State) : Prop :=
  (s.step.portHeld = true → s.portOpen = true) ∧
    (s.portOpen = true → s.step.portHeld = true ∨ s.step = .td .close) ∧
    (s.ctlAsserted = true → s.portOpen = true) ∧
    (s.streamOpen = true ↔
      (s.op = .read ∨ s.op = .write) ∧ s.step ≠ .idle ∧ s.step ≠ .td .finish)

/-- An active await is the await of the current step, with its bytes in bounds (R43, R142, R147). -/
def CollectorOk (s : State) : Prop :=
  match s.cmode with
  | .idle => True
  | .eq => s.step = .hs .await ∧ s.cidx = 0 ∧ s.cneed = 1 ∧ s.cexp = Config.hsAckByte
  | .ack =>
    (s.step = .ld .announceAwait ∨ s.step = .ld .uploadAwait) ∧ s.cidx = 0 ∧ s.cneed = 1
  | .count => s.step = .ld .execAwait ∧ s.cidx < s.cneed ∧ s.cneed = Config.execCount
  | .frame =>
    match s.cshape with
    | .read =>
      s.step = .rd .await ∧
        ((s.cidx < Config.hdrLen ∧ s.cneed = Config.hdrLen) ∨
          (Config.hdrLen ≤ s.cidx ∧ s.cidx < s.cneed ∧
            s.cneed = Config.hdrLen + s.chunkLen.toNat + 1))
    | .ack9 =>
      (s.step = .wr .await ∨ s.step = .er .await) ∧ s.cidx < s.cneed ∧ s.cneed = Config.ack9Len

/-- The region check holds at every step behind it (R61, R161, R194). -/
def RegionOk (s : State) : Prop :=
  s.step.working = true ∧ s.step ≠ .range →
    ((s.op = .read ∨ s.op = .write) → s.addr0.toNat + s.len0.toNat ≤ Config.capacity) ∧
      (s.op = .erase → s.addr0.toNat < Config.capacity)

/-- Each stage runs only for the requests it belongs to (R190, R197, R200). -/
def StageOk (s : State) : Prop :=
  match s.step with
  | .ld _ | .opDispatch => s.op ≠ .connectOnly
  | .rd _ => s.op = .read
  | .wr _ => s.op = .write
  | .er _ => s.op = .erase
  | _ => True

/-- SESSION is the one of the stage; it is Closed after a session and Disconnected before the first
(R29). -/
def SessionOk (s : State) : Prop :=
  (s.step.working = true → s.session = s.step.sessionAt) ∧
    (s.step = .idle → s.session = if s.done then .closed else .disconnected)

/-- The transfer laws (R160, R161): what is committed and what remains make up the region, and every chunk
before the last is full. -/
def TransferOk (s : State) : Prop :=
  s.step.transferring = true →
    s.xfer.toNat + s.remaining.toNat = s.len0.toNat ∧
    s.curAddr.toNat = s.addr0.toNat + s.xfer.toNat ∧
    (s.remaining ≠ 0 → s.xfer.toNat = Config.chunkMax * s.chunks.toNat) ∧
    (s.remaining = 0 → s.chunks.toNat = chunkCount s.len0.toNat) ∧
    (s.step.inChunk = true →
      s.remaining ≠ 0 ∧ s.chunkLen.toNat = min s.remaining.toNat Config.chunkMax)

/-- The image bytes read of the current write chunk (R50, R203). -/
def ImageOk (s : State) : Prop :=
  match s.step with
  | .wr .src => s.widx < s.chunkLen.toNat
  | .wr .build => s.widx = s.chunkLen.toNat
  | _ => True

/-- TXCALLS counts the transmissions of the stages passed, and one per chunk (R33, R211). -/
def CountsOk (s : State) : Prop :=
  (s.step.working = true → s.txcalls.toNat = s.step.sent + s.chunks.toNat) ∧
    (s.step.working = true ∧ s.step.transferring = false →
      s.chunks = 0 ∧ s.xfer = 0)

/-- What a session that did not fail has done when it reaches teardown (R211). -/
def SuccessOk (s : State) : Prop :=
  s.failed = false → ((∃ t, s.step = .td t) ∨ s.done = true) →
    match s.op with
    | .connectOnly => s.txcalls = 1 ∧ s.chunks = 0 ∧ s.xfer = 0
    | .erase => s.txcalls = 5 ∧ s.chunks = 1 ∧ s.xfer = 0
    | .read | .write =>
      s.xfer = s.len0 ∧ s.chunks.toNat = chunkCount s.len0.toNat ∧
        s.txcalls.toNat = 4 + chunkCount s.len0.toNat

/-- The command about to be sent stands whole in `txbuf` (R44, R162 to R165). -/
def FrameOk (s : State) : Prop :=
  match s.builtFrame with
  | some f => s.txFrame = f
  | none => True

/-- The sink holds exactly the committed bytes of a READ, until a sink failure (R72, R202, R284). -/
def SinkOk (s : State) : Prop :=
  s.op = .read → s.step ≠ .idle ∨ s.done = true → s.err ≠ errWord .sinkFail 7 →
    s.sink.length = s.xfer.toNat

/-- No await or wait began in the future, and a WAIT is in progress only at a WAIT step (R39, R141). -/
def ClockOk (s : State) : Prop :=
  s.t0 ≤ s.now ∧ (s.waiting = true → s.step.waits = true)

/-- A request rejected by the region check has sent nothing (R208). -/
def RejectedOk (s : State) : Prop :=
  errKind s.err = Kind.rangeError.code → s.txcalls = 0 ∧ s.chunks = 0 ∧ s.xfer = 0

/-- What the bytes of a response collected so far have passed: marker, status and, in a read response, the
length field (R147, R148). -/
def State.rxHeaderOk (s : State) (sh : Shape) (n : Nat) : Prop :=
  (0 < n → s.rxbuf.read 0 = s.cfg.raw.marker) ∧ (1 < n → s.rxbuf.read 1 = Config.statusOk) ∧
    (sh = .read → Config.hdrLen ≤ n → Codec.rd16 (s.rxbuf.read 6) (s.rxbuf.read 7) = s.chunkLen)

/-- A whole response of `n` bytes stands in `rxbuf` and has passed every check (R169, R202). -/
def State.rxFrameOk (s : State) (sh : Shape) (n : Nat) : Prop :=
  s.rxHeaderOk sh n ∧ Codec.sum8 (s.rxbuf.readBytes 0 (n - 1)) = s.rxbuf.read (n - 1)

/-- While a frame is collected its bytes have passed their checks, and a chunk or an erase is committed
only behind a whole response that passed them all (R72, R73, R202). -/
def ResponseOk (s : State) : Prop :=
  (s.cmode = .frame → s.rxHeaderOk s.cshape s.cidx) ∧
    (s.step = .rd .commit → s.rxFrameOk .read (Config.hdrLen + s.chunkLen.toNat + 1)) ∧
    (s.step = .wr .commit ∨ s.step = .er .commit → s.rxFrameOk .ack9 Config.ack9Len)

/-- The invariant of the block. -/
structure Inv (s : State) : Prop where
  buffers : BuffersOk s
  flags : FlagsOk s
  failure : FailureOk s
  resources : ResourcesOk s
  collector : CollectorOk s
  region : RegionOk s
  stage : StageOk s
  session : SessionOk s
  transfer : TransferOk s
  image : ImageOk s
  counts : CountsOk s
  success : SuccessOk s
  frame : FrameOk s
  sink : SinkOk s
  clock : ClockOk s
  rejected : RejectedOk s
  response : ResponseOk s

end Sys2Proof.Machine
end

