-- ==== Sys2Proof/Certificates/Slice0/Obligations.lean ====
section
/-!
DEFINITION. What is to be proved of the model: one statement each, after the numbered rules of spec/.
-/

open Sys2Proof Sys2Proof.Machine

/-! ## Fetching, decoding, encoding -/

/-- A step runs the decoded instruction: the engine's next action stands in the collector's mode while an
await runs, else in `step` (R40, R143, R192); a write of CTRL.START runs the request in REQ_OP (R87); the
Peer's bytes are read in the form the collector expects (R11, R102). All that `step` adds is taking the
move off the schedule and handing the engine the answers drawn for it. Where an instruction stands, and
that a move and its answers are scheduled or drawn, is the model's choice (log entries 3, 4, 6, 33). -/
def Obligations.StepRunsDecodedInstruction : Prop :=
  (∀ (s : State) (m : Config.Turn) (ms : List Config.Turn),
    s.inputs = m :: ms → s.nextTurn = (m, { s with inputs := ms })) ∧
  (∀ s : State, s.inputs = [] →
    s.nextTurn = (Config.draw s.draws, { s with draws := s.draws + 1 })) ∧
  (∀ (s u : State) (a : Config.Answers) (i : Instr), s.nextTurn = (.engine a, u) → u.step ≠ .idle →
    decode u.cfg (if u.cmode = .idle then .stage u.step else .mode u.cmode.code) = .ok i →
    step s = exec i { u with ans := a }) ∧
  (∀ (s u : State) (v : Word) (i : Instr), s.nextTurn = (.hostWrite 4 v, u) → v.getLsbD 0 = true →
    decode u.cfg (.request (u.reqOp.setWidth 32)) = .ok i → step s = exec i u) ∧
  (∀ (s u : State) (bs : List Byte) (i : Instr), s.nextTurn = (.peer bs, u) →
    decode u.cfg (u.receivedCode bs) = .ok i → step s = exec i u)

/-- A step that fetches no instruction: the engine at IDLE has none (R192), bytes that are no frame still
join the receive queue (R11), the Clock ticks (R48), and a host read has no side effect but its value
(R34). That the value stands in `rdata`, and that a move of the idle engine is a step that changes nothing,
are the model's choices (log entries 24, 30). -/
def Obligations.StepWithoutInstruction : Prop :=
  (∀ (s u : State) (a : Config.Answers), s.nextTurn = (.engine a, u) → u.step = .idle →
    step s = .next { u with ans := a }) ∧
  (∀ (s u : State) (bs : List Byte) (e : DecodeError), s.nextTurn = (.peer bs, u) →
    decode u.cfg (u.receivedCode bs) = .error e → step s = .next { u with rxq := u.rxq ++ bs }) ∧
  (∀ (s u : State), s.nextTurn = (.clock, u) → step s = .next { u with now := u.now + 1 }) ∧
  (∀ (s u : State) (n : Nat), s.nextTurn = (.hostRead n, u) →
    step s = .next { u with rdata := u.hostReg n })

/-- Words written out from the encoding tables decode to the instructions they stand for, for any
configuration with the placeholder bytes of the test profile TP (R87, R91 to R99, R101, R151). -/
def Obligations.WrittenWordsDecode : Prop :=
  ∀ c : Config.Params, c.raw.marker = 0x5A → c.raw.subopRead = 1 → c.raw.subopWrite = 2 →
    c.raw.subopEraseAll = 3 → c.raw.subopEraseSector = 4 →
    decode c (.command [0x5A, 0x01, 0x00, 0x10, 0x00, 0x00, 0x00, 0x02, 0x6D]) =
      .ok (.cmdRead 0x1000 0x200) ∧
    decode c (.command [0x5A, 0x02, 0xF0, 0x3F, 0x00, 0x00, 0x00, 0x00, 0xDE, 0xAD, 0x16]) =
      .ok (.cmdWrite 0x3FF0 [0xDE, 0xAD]) ∧
    decode c (.command [0x5A, 0x03, 0x00, 0x00, 0x00, 0x00, 0x00, 0x00, 0x5D]) = .ok .cmdEraseAll ∧
    decode c (.command [0x5A, 0x04, 0x00, 0x10, 0x00, 0x00, 0x00, 0x00, 0x6E]) =
      .ok (.cmdEraseSector 0x1000) ∧
    decode c (.response .read [0x5A, 0x00, 0x00, 0x10, 0x00, 0x00, 0x01, 0x00, 0x42, 0xAD]) =
      .ok (.rspRead 0x1000 [0x42]) ∧
    decode c (.response .ack9 [0x5A, 0x00, 0x01, 0x02, 0x03, 0x04, 0x05, 0x06, 0x6F]) =
      .ok (.rspAck9 1 2 3 4 5 6) ∧
    decode c (.reply [0x11]) = .ok .hsAck ∧ decode c (.reply [0x01]) = .ok .genAck ∧
    decode c (.mode 0b001) = .ok .awaitEq ∧ decode c (.mode 0b010) = .ok .awaitAck ∧
    decode c (.mode 0b011) = .ok .awaitCount ∧ decode c (.mode 0b100) = .ok .awaitFrame ∧
    decode c (.request 0xFFFFFFFC) = .ok .reqConnectOnly ∧ decode c (.request 0x00000005) = .ok .reqRead ∧
    decode c (.request 0x00000002) = .ok .reqWrite ∧ decode c (.request 0xFFFFFFFF) = .ok .reqErase

/-- Decoding an encoded instruction gives it back, for every configuration and every operand its rule
admits: no bit of an encoding is dropped (R14, R87 to R101, R103, R151). The calls, checksum forms and stages
have no bits in the table and stand as it writes them, by the model's choice (log entry 7). -/
def Obligations.DecodeEncode : Prop :=
  ∀ (c : Config.Params) (i : Instr), i.wf = true → decode c (encode c i) = .ok i

/-- Encoding a decoded instruction gives its code back (R87, R90 to R101, R151); of a request word the bits
[1:0] come back, the only ones that are stored. The checksum forms, the calls, START and the stages stand as
the table writes them, by the model's choice (log entry 7); OPEN, a call and a stage, comes back as the call. -/
def Obligations.EncodeDecode : Prop :=
  ∀ (c : Config.Params) (i : Instr),
    (∀ bs, decode c (.command bs) = .ok i → encode c i = .command bs) ∧
    (∀ sh bs, decode c (.response sh bs) = .ok i → encode c i = .response sh bs) ∧
    (∀ bs, decode c (.reply bs) = .ok i → encode c i = .reply bs) ∧
    (∀ bs, decode c (.stream bs) = .ok i → encode c i = .stream bs) ∧
    (∀ k bs, decode c (.asset k bs) = .ok i → encode c i = .asset k bs) ∧
    (∀ v, decode c (.mode v) = .ok i → encode c i = .mode v) ∧
    (∀ f, decode c (.sum f) = .ok i → encode c i = .sum f) ∧
    (∀ k, decode c (.call k) = .ok i → encode c i = .call k) ∧
    (decode c .start = .ok i → encode c i = .start) ∧
    (∀ st, decode c (.stage st) = .ok i →
      encode c i = if st = .openPort then .call .openPort else .stage st) ∧
    (∀ w : Word, decode c (.request w) = .ok i →
      encode c i = .request ((w.extractLsb' 0 2).setWidth 32))

/-- Every frame starts with the marker and ends with the checksum trailer over every byte before it
(R88). -/
def Obligations.FramesCarryMarkerAndTrailer : Prop :=
  ∀ (c : Config.Params) (i : Instr) (bs : List Byte),
    (encode c i = .command bs ∨ ∃ sh, encode c i = .response sh bs) →
    bs[0]? = some c.raw.marker ∧
      ∃ (body : List Byte) (t : Byte), bs = body ++ [t] ∧ t.toNat = byteSum body % 256

/-! ## The checksum -/

/-- The wrap-around sum is the arithmetic sum modulo 256, and CHECKSUM returns it and changes nothing else
(R120, R121). That the returned value stands in `sumOut` is the model's choice (log entry 23). -/
def Obligations.ChecksumIsSumModulo256 : Prop :=
  ∀ bs : List Byte, (Codec.sum8 bs).toNat = byteSum bs % 256 ∧
    ∀ s : State, exec (.checksum bs) s = .next { s with sumOut := BitVec.ofNat 8 (byteSum bs) }

/-- CHECKSUM_STAMP writes the sum of the bytes before index n at index n, sets `txlen`, and changes no
other byte and no other state (R122). That a stamp of fewer than 8 bytes does the same is the model's
reading (log entry 31). -/
def Obligations.StampWritesTrailer : Prop :=
  ∀ (n : Nat) (s : State), n ≤ 520 →
    ∃ t : State, exec (.checksumStamp n) s = .next t ∧
      (t.txbuf.read n).toNat = byteSum (s.txbuf.readBytes 0 n) % 256 ∧ t.txlen = n + 1 ∧
      (∀ x, x ≠ n → t.txbuf.read x = s.txbuf.read x) ∧
      t = { s with txbuf := t.txbuf, txlen := t.txlen }

/-- CHECKSUM_VALIDATE of `rxbuf[0..n)` passes and changes nothing exactly when the last byte is the sum of
the bytes before it; else it fails with ProtocolMismatch/BAD_CHECKSUM (R123), with the STAGE of the current
step; that IDLE has STAGE 0 is the model's choice (log entry 29). -/
def Obligations.ValidateChecksTrailer : Prop :=
  ∀ (n : Nat) (s : State), 9 ≤ n → n ≤ 521 →
    (byteSum (s.rxbuf.readBytes 0 (n - 1)) % 256 = (s.rxbuf.read (n - 1)).toNat →
      exec (.checksumValidate n) s = .next s) ∧
    (byteSum (s.rxbuf.readBytes 0 (n - 1)) % 256 ≠ (s.rxbuf.read (n - 1)).toNat →
      exec (.checksumValidate n) s =
        .next (s.awaitFailedAt .badChecksum 3 (stageOf s.op s.step).toNat 7))

/-- Changing exactly one byte of a frame that passes makes CHECKSUM_VALIDATE fail (R124); reordering the
bytes before the trailer, or changing them by differences that cancel modulo 256, does not (R125). -/
def Obligations.ChecksumDetectionLaws : Prop :=
  ∀ (n : Nat) (s : State), 9 ≤ n → n ≤ 521 →
    byteSum (s.rxbuf.readBytes 0 (n - 1)) % 256 = (s.rxbuf.read (n - 1)).toNat →
    (∀ (x : Nat) (b : Byte), x < n → b ≠ s.rxbuf.read x →
      exec (.checksumValidate n) { s with rxbuf := Memory.write x b s.rxbuf } =
        .next (State.awaitFailedAt .badChecksum 3 (stageOf s.op s.step).toNat 7
          { s with rxbuf := Memory.write x b s.rxbuf })) ∧
    ∀ u : State, u.rxbuf.read (n - 1) = s.rxbuf.read (n - 1) →
      ((u.rxbuf.readBytes 0 (n - 1)).Perm (s.rxbuf.readBytes 0 (n - 1)) ∨
        byteSum (u.rxbuf.readBytes 0 (n - 1)) % 256 =
          byteSum (s.rxbuf.readBytes 0 (n - 1)) % 256) →
      exec (.checksumValidate n) u = .next u

/-! ## The command builders -/

/-- BUILD_READ and both erase builders leave nine bytes in `txbuf`, the trailer being the sum of the first
eight, and touch nothing else. Every slot of the chip erase is zero, so its trailer is MARKER +
SUBOP_ERASE_ALL; a sector erase carries its target unrounded (R91, R93, R94, R162, R164, R165). That a length
outside 1 to 0x200, or a target of 0 or past the flash, is built in the same way is the model's reading (log
entry 31). -/
def Obligations.BuildersWriteNineBytes : Prop :=
  (∀ (a : Word) (n : Half) (s : State),
    let body : List Byte :=
      [s.cfg.raw.marker, s.cfg.raw.subopRead, a.extractLsb' 0 8, a.extractLsb' 8 8,
        a.extractLsb' 16 8, a.extractLsb' 24 8, n.extractLsb' 0 8, n.extractLsb' 8 8]
    ∃ t : State, exec (.cmdRead a n) s = .next t ∧ t.txbuf.readBytes 0 8 = body ∧
      (t.txbuf.read 8).toNat = byteSum body % 256 ∧ t.txlen = 9 ∧
      (∀ x, 9 ≤ x → t.txbuf.read x = s.txbuf.read x) ∧
      t = { s with txbuf := t.txbuf, txlen := t.txlen }) ∧
  ∀ s : State,
    (∃ t : State, exec .cmdEraseAll s = .next t ∧
      t.txbuf.readBytes 0 9 =
        [s.cfg.raw.marker, s.cfg.raw.subopEraseAll, 0, 0, 0, 0, 0, 0,
          s.cfg.raw.marker + s.cfg.raw.subopEraseAll] ∧ t.txlen = 9 ∧
      (∀ x, 9 ≤ x → t.txbuf.read x = s.txbuf.read x) ∧
      t = { s with txbuf := t.txbuf, txlen := t.txlen }) ∧
    ∀ a : Word,
      let body : List Byte :=
        [s.cfg.raw.marker, s.cfg.raw.subopEraseSector, a.extractLsb' 0 8, a.extractLsb' 8 8,
          a.extractLsb' 16 8, a.extractLsb' 24 8, 0x00, 0x00]
      ∃ t : State, exec (.cmdEraseSector a) s = .next t ∧ t.txbuf.readBytes 0 8 = body ∧
        (t.txbuf.read 8).toNat = byteSum body % 256 ∧ t.txlen = 9 ∧
        (∀ x, 9 ≤ x → t.txbuf.read x = s.txbuf.read x) ∧
        t = { s with txbuf := t.txbuf, txlen := t.txlen }

/-- BUILD_WRITE leaves header, payload and trailer in `txbuf`; the length slot is zero whatever the payload
(R92, R163). That an empty payload is built in the same way is the model's reading (log entry 31). -/
def Obligations.BuildWriteWritesFrame : Prop :=
  ∀ (a : Word) (d : List Byte) (s : State), d.length ≤ 0x200 →
    let body : List Byte :=
      [s.cfg.raw.marker, s.cfg.raw.subopWrite, a.extractLsb' 0 8, a.extractLsb' 8 8,
        a.extractLsb' 16 8, a.extractLsb' 24 8, 0x00, 0x00] ++ d
    ∃ t : State, exec (.cmdWrite a d) s = .next t ∧ t.txbuf.readBytes 0 (8 + d.length) = body ∧
      (t.txbuf.read (8 + d.length)).toNat = byteSum body % 256 ∧ t.txlen = 9 + d.length ∧
      (∀ x, 9 + d.length ≤ x → t.txbuf.read x = s.txbuf.read x) ∧
      t = { s with txbuf := t.txbuf, txlen := t.txlen }

/-! ## Received traffic -/

/-- What the Peer sends joins the tail of `rxq`, in order, and nothing else changes: a read response with
its trailer, a nine-byte response, the two answers, and the execute stream (R11, R45, R95, R96, R98, R99,
R101). That this is the meaning of a received row, in one move, is the model's choice (log entries 20, 21). -/
def Obligations.PeerBytesJoinQueue : Prop :=
  (∀ (a : Word) (d : List Byte) (s : State), d.length ≤ 0x200 →
    let body : List Byte :=
      [s.cfg.raw.marker, 0x00, a.extractLsb' 0 8, a.extractLsb' 8 8, a.extractLsb' 16 8,
        a.extractLsb' 24 8, BitVec.ofNat 8 d.length, BitVec.ofNat 8 (d.length / 256)] ++ d
    exec (.rspRead a d) s =
      .next { s with rxq := s.rxq ++ body ++ [BitVec.ofNat 8 (byteSum body)] }) ∧
  (∀ (r2 r3 r4 r5 r6 r7 : Byte) (s : State),
    exec (.rspAck9 r2 r3 r4 r5 r6 r7) s =
      .next { s with
        rxq := s.rxq ++ [s.cfg.raw.marker, 0x00, r2, r3, r4, r5, r6, r7,
          s.cfg.raw.marker + r2 + r3 + r4 + r5 + r6 + r7] }) ∧
  (∀ s : State, exec .hsAck s = .next { s with rxq := s.rxq ++ [0x11] }) ∧
  (∀ s : State, exec .genAck s = .next { s with rxq := s.rxq ++ [0x01] }) ∧
  ∀ (bs : List Byte) (s : State), exec (.execStream bs) s = .next { s with rxq := s.rxq ++ bs }

/-! ## Transmission -/

/-- The training pattern is 96 bytes, 0x18 at even and 0xFF at odd offsets (R97). -/
def Obligations.TrainingPatternAlternates : Prop :=
  ∀ c : Config.Params, (Codec.assetBytes c .training).length = 96 ∧
    ∀ i, i < 96 →
      (Codec.assetBytes c .training)[i]? = some (if i % 2 = 0 then 0x18 else 0xFF)

/-- A transmission that the Transport accepts whole: TXCALLS and the history grow by one, and the wire
gets the whole frame or asset in one call; the seven transmitting steps then go to their successors (R70,
R97, R100, R132, R196, R198, R201, R203, R205, R207). -/
def Obligations.AcceptedTransmission : Prop :=
  ∀ s : State,
    (∀ p ∈ [(Instr.hsTraining, TxSrc.training), (.announceCmd, .announce), (.loaderBin, .loader),
        (.executeCmd, .execute)],
      s.ans.tx = .count (s.txBytes p.2).length →
      exec p.1 s = .next (s.transmitted (s.txBytes p.2) (s.txBytes p.2)) ∧
        exec (.txwrite p.2) s = .next (s.transmitted (s.txBytes p.2) (s.txBytes p.2))) ∧
    (1 ≤ s.txlen → s.txlen ≤ 521 → s.ans.tx = .count s.txlen →
      exec (.txwrite .frame) s =
        .next (s.transmitted (s.txbuf.readBytes 0 s.txlen) (s.txbuf.readBytes 0 s.txlen))) ∧
    (∀ p ∈ [(Instr.seqHandshake .train, TxSrc.training, SeqStep.hs .release),
        (.seqLoader .announceTx, .announce, .ld .announceAwait),
        (.seqLoader .uploadTx, .loader, .ld .uploadAwait),
        (.seqLoader .execTx, .execute, .ld .execAwait)],
      s.ans.tx = .count (s.txBytes p.2.1).length →
      exec p.1 s =
        .next { s.transmitted (s.txBytes p.2.1) (s.txBytes p.2.1) with step := p.2.2 }) ∧
    (∀ p ∈ [(Instr.seqReadChunk .tx, SeqStep.rd .await), (.seqWriteChunk .tx, .wr .await),
        (.seqErase .tx, .er .await)],
      1 ≤ s.txlen → s.txlen ≤ 521 → s.ans.tx = .count s.txlen →
      exec p.1 s =
        .next { s.transmitted (s.txbuf.readBytes 0 s.txlen) (s.txbuf.readBytes 0 s.txlen) with
          step := p.2 })

/-- A transmission that fails is still counted, and fails the session at its step: SHORT_WRITE with
exactly the accepted bytes on the wire, WRITE_FAIL with some leading part of them (R132, R243, R247). Only the
three steps that send a frame read `txlen`. -/
def Obligations.FailedTransmission : Prop :=
  ∀ s : State,
    ∀ p ∈ [(Instr.seqHandshake .train, TxSrc.training, 3), (.seqLoader .announceTx, .announce, 4),
        (.seqLoader .uploadTx, .loader, 5), (.seqLoader .execTx, .execute, 6),
        (.seqReadChunk .tx, .frame, 7), (.seqWriteChunk .tx, .frame, 8), (.seqErase .tx, .frame, 9)],
      (p.2.1 = .frame → 1 ≤ s.txlen ∧ s.txlen ≤ 521) →
      (∀ k, s.ans.tx = .count k → k < (s.txBytes p.2.1).length →
        exec p.1 s =
          .next ((s.transmitted (s.txBytes p.2.1) ((s.txBytes p.2.1).take k)).failedAt 1 p.2.2 3)) ∧
      (s.ans.tx = .err →
        ∃ k, exec p.1 s =
          .next ((s.transmitted (s.txBytes p.2.1) ((s.txBytes p.2.1).take k)).failedAt 1 p.2.2 2)) ∧
      (∀ k, s.ans.tx = .count k → (s.txBytes p.2.1).length < k →
        exec p.1 s = .refused .txCountAboveLength)

/-! ## Calls on the Transport and the image stream -/

/-- OPEN at the OPEN step: on ok the port is open and the queue empty, and the handshake follows; on err
the port keeps its state and the session fails (R131, R195). That the call empties the queue is the model's
reading of R131's corner case (log entry 11). -/
def Obligations.OpenAnswers : Prop :=
  ∀ s : State, s.step = .openPort →
    (s.ans.openOk = true →
      exec .openPort s =
        .next { s with
          portOpen := true, rxq := [], hist := s.hist ++ [.openPort true], step := .hs .assert }) ∧
    (s.ans.openOk = false →
      exec .openPort s =
        .next (State.failedAt 1 2 1 { s with hist := s.hist ++ [.openPort false] }))

/-- POLL answers the head of `rxq` and removes it, NoData only when the queue is empty, and err at any
time; the other answers are no legal ones (R133). -/
def Obligations.PollAnswers : Prop :=
  ∀ s : State,
    (∀ b q, s.ans.poll = .byte → s.rxq = b :: q →
      exec .poll s = .next { s with rxq := q, hist := s.hist ++ [.poll (.byte b)] }) ∧
    (s.ans.poll = .noData → s.rxq = [] → exec .poll s = .next s) ∧
    (s.ans.poll = .err → exec .poll s = .next { s with hist := s.hist ++ [.poll .err] }) ∧
    (s.ans.poll = .noData → s.rxq ≠ [] → exec .poll s = .refused .pollAnswerIllegal) ∧
    (s.ans.poll = .byte → s.rxq = [] → exec .poll s = .refused .pollAnswerIllegal)

/-- FLUSH empties `rxq`; CTL_ASSERT and CTL_RELEASE set and clear `ctl_asserted`, whatever it was; each
changes nothing else (R134, R135, R136). -/
def Obligations.FlushAndControlLine : Prop :=
  ∀ s : State,
    exec .flush s = .next { s with rxq := [], hist := s.hist ++ [.flush] } ∧
    exec .ctlAssert s = .next { s with ctlAsserted := true, hist := s.hist ++ [.ctlAssert] } ∧
    exec .ctlRelease s = .next { s with ctlAsserted := false, hist := s.hist ++ [.ctlRelease] }

/-- CLOSE closes the port whatever the answer and raises nothing; STREAM_CLOSE releases the stream; neither
is issued when there is nothing to release (R137, R140, R206). That the guard stands in the call is the
model's choice (log entry 26), and so is the released line (log entry 28, after R137). -/
def Obligations.CloseCalls : Prop :=
  ∀ s : State,
    (s.portOpen = true →
      exec .close s =
        .next { s with
          portOpen := false, ctlAsserted := false, hist := s.hist ++ [.close s.ans.closeOk] }) ∧
    (s.portOpen = false → exec .close s = .next s) ∧
    (s.streamOpen = true →
      exec .streamClose s =
        .next { s with streamOpen := false, hist := s.hist ++ [.streamClose] }) ∧
    (s.streamOpen = false → exec .streamClose s = .next s)

/-- SRC_READ only records its answer; SINK_WRITE passes exactly `rxbuf[8..8+chunk_len)`, and on a failure
the sink keeps what it held, with any further bytes (log entry 17, after I2) (R138, R139, R168). -/
def Obligations.StreamCalls : Prop :=
  ∀ s : State,
    exec .srcRead s = .next { s with hist := s.hist ++ [.srcRead s.ans.src] } ∧
    (1 ≤ s.chunkLen.toNat → s.chunkLen.toNat ≤ 0x200 →
      let payload := s.rxbuf.readBytes 8 s.chunkLen.toNat
      (s.ans.sinkOk = true →
        exec .sinkWrite s =
          .next { s with
            sink := s.sink ++ payload, hist := s.hist ++ [.sinkWrite payload true] }) ∧
      (s.ans.sinkOk = false →
        ∃ kept : List Byte,
          exec .sinkWrite s =
            .next (State.failedAt 5 (stageOf s.op s.step).toNat 3
              { s with
                sink := s.sink ++ kept, hist := s.hist ++ [.sinkWrite payload false] })))

/-- WAIT(T) stamps `t0` on entry, holds with all state unchanged while `now - t0 < T`, and ends once
`now - t0 >= T`: the six operand forms, and the eight WAIT steps, each of which then goes to its successor;
Ready is reached only behind the final settle delay (R141, R196, R198, R199, R201, R203, R205, R287). That
the entry is an engine step of its own, held in `waiting`, is the model's choice (log entry 10). -/
def Obligations.WaitHoldsUntilElapsed : Prop :=
  WaitsFor (exec (.wait .pdelay)) (fun s => s.pdelay.toNat) id ∧
  WaitsFor (exec (.wait .hsSettle)) (fun s => s.cfg.raw.tHsSettle) id ∧
  WaitsFor (exec (.wait .preUpload)) (fun s => s.cfg.raw.tPreUpload) id ∧
  WaitsFor (exec (.wait .preExec)) (fun s => s.cfg.raw.tPreExec) id ∧
  WaitsFor (exec (.wait .final)) (fun s => s.cfg.raw.tFinal) id ∧
  WaitsFor (exec (.wait .chunkSettle)) (fun s => s.cfg.raw.tChunkSettle) id ∧
  WaitsFor (exec (.seqHandshake .powerWait)) (fun s => s.pdelay.toNat) (State.goto (.hs .train)) ∧
  WaitsFor (exec (.seqHandshake .settle)) (fun s => s.cfg.raw.tHsSettle) (State.goto (.hs .flush)) ∧
  WaitsFor (exec (.seqLoader .preUpload)) (fun s => s.cfg.raw.tPreUpload)
    (State.goto (.ld .uploadTx)) ∧
  WaitsFor (exec (.seqLoader .preExec)) (fun s => s.cfg.raw.tPreExec) (State.goto (.ld .execTx)) ∧
  WaitsFor (exec (.seqLoader .final)) (fun s => s.cfg.raw.tFinal)
    (fun s => { s with session := .ready, step := .opDispatch }) ∧
  WaitsFor (exec (.seqReadChunk .settle)) (fun s => s.cfg.raw.tChunkSettle) (State.goto (.rd .tx)) ∧
  WaitsFor (exec (.seqWriteChunk .settle)) (fun s => s.cfg.raw.tChunkSettle) (State.goto (.wr .tx)) ∧
  WaitsFor (exec (.seqErase .settle)) (fun s => s.cfg.raw.tChunkSettle) (State.goto (.er .tx))

/-! ## The collector -/

/-- Await entry at the seven await steps, and of the four AWAIT rows: mode, budget, start time, count and
need are set, nothing else (R142, R167, R196, R198, R201, R203, R205). That the entry is an engine step of
its own and that an AWAIT row takes its operands from the collector registers are the model's choices (log
entries 8, 9). -/
def Obligations.AwaitEntry : Prop :=
  ∀ s : State,
    let entered (m : CMode) (budget need : Nat) (u : State) : State :=
      { u with
        cmode := m, ctimeout := budget, t0 := u.now, cidx := 0, cneed := need, cresult := .none }
    (s.cmode = .idle →
      exec (.seqHandshake .await) s =
        .next (entered .eq s.cfg.raw.tHsAck 1 { s with cexp := 0x11 }) ∧
      exec (.seqLoader .announceAwait) s = .next (entered .ack s.cfg.raw.tAnnounce 1 s) ∧
      exec (.seqLoader .uploadAwait) s = .next (entered .ack s.cfg.raw.tUpload 1 s) ∧
      exec (.seqLoader .execAwait) s = .next (entered .count s.cfg.raw.tExec 11 s) ∧
      exec (.seqReadChunk .await) s =
        .next (entered .frame s.cfg.raw.tFrameRead 8 { s with cshape := .read }) ∧
      exec (.seqWriteChunk .await) s =
        .next (entered .frame s.cfg.raw.tFrameWrite 9 { s with cshape := .ack9 }) ∧
      exec (.seqErase .await) s =
        .next (entered .frame s.cfg.raw.tFrameErase 9 { s with cshape := .ack9 })) ∧
    (s.cmode ≠ .eq → exec .awaitEq s = .next (entered .eq s.ctimeout 1 s)) ∧
    (s.cmode ≠ .ack → exec .awaitAck s = .next (entered .ack s.ctimeout 1 s)) ∧
    (s.cmode ≠ .count → exec .awaitCount s = .next (entered .count s.ctimeout 11 s)) ∧
    (s.cmode ≠ .frame →
      exec .awaitFrame s =
        .next (entered .frame s.ctimeout (if s.cshape = .read then 8 else 9) s))

/-- AWAIT_EQ and AWAIT_ACK: the first byte polled decides. Another byte than the expected one fails with
WRONG_BYTE, another than 0x01 with NACK, and is lost (R98, R99, R144, R145, R149, R245). That `cidx` becomes
1 in ACK mode too is the model's reading (log entry 27). -/
def Obligations.AwaitOneByteDecides : Prop :=
  (∀ (s : State) (b : Byte) (q : List Byte), s.cmode = .eq → s.step = .hs .await →
    s.ans.poll = .byte → s.rxq = b :: q →
    let got : State := { s with rxq := q, hist := s.hist ++ [.poll (.byte b)], cidx := 1 }
    (b = s.cexp →
      exec .awaitEq s =
        .next { got with cresult := .success, cmode := .idle, step := .hs .settle }) ∧
    (b ≠ s.cexp → exec .awaitEq s = .next (got.awaitFailedAt .wrongByte 3 3 1))) ∧
  ∀ (s : State) (b : Byte) (q : List Byte), s.cmode = .ack → s.ans.poll = .byte → s.rxq = b :: q →
    ∀ p ∈ [(SeqStep.ld .announceAwait, 4, SeqStep.ld .preUpload),
        (.ld .uploadAwait, 5, .ld .preExec)],
      s.step = p.1 →
      let got : State := { s with rxq := q, hist := s.hist ++ [.poll (.byte b)], cidx := 1 }
      (b = 0x01 →
        exec .awaitAck s =
          .next { got with cresult := .success, cmode := .idle, step := p.2.2 }) ∧
      (b ≠ 0x01 → exec .awaitAck s = .next (got.awaitFailedAt .nack 3 p.2.1 2))

/-- AWAIT_COUNT: bytes of any value are counted and dropped; the last one completes the await, and the
loader counts as installed in that same step (R101, R146, R149, R198). -/
def Obligations.AwaitCountCounts : Prop :=
  ∀ (s : State) (b : Byte) (q : List Byte), s.cmode = .count → s.step = .ld .execAwait →
    s.ans.poll = .byte → s.rxq = b :: q →
    let got : State := { s with rxq := q, hist := s.hist ++ [.poll (.byte b)], cidx := s.cidx + 1 }
    (s.cidx + 1 ≠ s.cneed → exec .awaitCount s = .next got) ∧
    (s.cidx + 1 = s.cneed →
      exec .awaitCount s =
        .next { got with
          cresult := .success, cmode := .idle, session := .loaderInstalled, step := .ld .final })

/-- AWAIT_FRAME on one byte: it is stored at `cidx` and no other byte of `rxbuf` changes; the checks run
in byte order, the length is tested against 0x200 before `chunk_len`, and the trailer is checked when the
whole frame has arrived (R102, R104, R147, R148, R149). -/
def Obligations.AwaitFrameChecksInByteOrder : Prop :=
  ∀ (s : State) (b : Byte) (q : List Byte), s.cmode = .frame → s.ans.poll = .byte → s.rxq = b :: q →
    s.cidx < 521 →
    ∀ p ∈ [(SeqStep.rd .await, 7, SeqStep.rd .commit), (.wr .await, 8, .wr .commit),
        (.er .await, 9, .er .commit)],
      s.step = p.1 →
      ∃ m : Memory, m.read s.cidx = b ∧ (∀ x, x ≠ s.cidx → m.read x = s.rxbuf.read x) ∧
        (s.rxbuf.wf = true → m.wf = true) ∧
        let got : State :=
          { s with rxq := q, hist := s.hist ++ [.poll (.byte b)], rxbuf := m, cidx := s.cidx + 1 }
        let len : Nat := (m.read 6).toNat + 256 * (m.read 7).toNat
        exec .awaitFrame s =
          .next
            (if s.cidx = 0 ∧ b ≠ s.cfg.raw.marker then got.awaitFailedAt .badMarker 3 p.2.1 3
            else if s.cidx = 1 ∧ b ≠ 0x00 then got.awaitFailedAt .badStatus 3 p.2.1 4
            else if s.cshape = .read ∧ s.cidx = 7 then
              if 0x200 < len then got.awaitFailedAt .badLength 3 p.2.1 5
              else if len ≠ s.chunkLen.toNat then got.awaitFailedAt .lenMismatch 3 p.2.1 6
              else { got with cneed := 8 + len + 1 }
            else if s.cidx + 1 = s.cneed then
              if byteSum (m.readBytes 0 s.cidx) % 256 = b.toNat then
                { got with cresult := .success, cmode := .idle, step := p.2.2 }
              else got.awaitFailedAt .badChecksum 3 p.2.1 7
            else got)

/-- The collect step on a poll that brings no byte, in each mode at each of its steps: err fails with
READ_FAIL; NoData fails with the mode's timeout once `now - t0 >= ctimeout`, and else holds with no state
changed; an answer that is not legal has no step (R133, R143, R243). -/
def Obligations.CollectWithoutByte : Prop :=
  ∀ (s : State) (i : Instr) (m : CMode) (code : Nat) (c : Cause),
    (i, m, code, c) ∈ [(Instr.awaitEq, CMode.eq, 1, Cause.timeoutEq), (.awaitAck, .ack, 2, .timeoutAck),
      (.awaitCount, .count, 3, .timeoutCount), (.awaitFrame, .frame, 4, .timeoutFrame)] →
    s.cmode = m →
    ∀ p ∈ [(SeqStep.hs .await, 3), (.ld .announceAwait, 4), (.ld .uploadAwait, 5), (.ld .execAwait, 6),
        (.rd .await, 7), (.wr .await, 8), (.er .await, 9)],
      s.step = p.1 →
      (s.ans.poll = .err →
        exec i s =
          .next (State.awaitFailedAt .readFail 1 p.2 4 { s with hist := s.hist ++ [.poll .err] })) ∧
      (s.ans.poll = .noData → s.rxq = [] → s.ctimeout ≤ s.now - s.t0 →
        exec i s =
          .next (State.awaitFailedAt c 2 p.2 code { s with hist := s.hist ++ [.poll .noData] })) ∧
      (s.ans.poll = .noData → s.rxq = [] → s.now - s.t0 < s.ctimeout → exec i s = .next s) ∧
      (s.ans.poll = .noData → s.rxq ≠ [] → exec i s = .refused .pollAnswerIllegal) ∧
      (s.ans.poll = .byte → s.rxq = [] → exec i s = .refused .pollAnswerIllegal)

/-- Every await ends (R150). As many polls that bring a byte as its mode still needs end it, whatever the
bytes: 1 in EQ and ACK, 11 in COUNT, 9 for ACK9 and the frame's length for READ; it succeeds or fails, and the
sequencer leaves its step. The Clock of the model is weakly fair: from every state the run stops or the Clock
moves again (R12). And under a fair Clock and a fair Transport an await ends whatever the agents do. That
fairness is a predicate on the moves, the Transport's being that of the Engine's moves, is the model's
choice (log entries 3, 4, 37). -/
def Obligations.AwaitEndsInBoundedPolls : Prop :=
  (∀ (s : State) (as : List Config.Answers) (ms : List Config.Turn), Inv s → s.cmode ≠ .idle →
    (∀ a ∈ as, a.poll = .byte) → s.cidx + as.length = s.awaitLen → as.length ≤ s.rxq.length →
    s.inputs = as.map .engine ++ ms →
    ∃ (k : Nat) (t : State), 1 ≤ k ∧ k ≤ as.length ∧ Host.Core.run core k s = .next t ∧
      t.cmode = .idle ∧ t.cresult ≠ .none ∧ t.step ≠ s.step) ∧
  (∀ s : State, ∃ k : Nat, ∀ t : State, Host.Core.run core k s = .next t →
    ∃ u : State, t.nextTurn = (.clock, u)) ∧
  ∀ (σ : Nat → Config.Turn) (τ : Nat → State), Execution σ τ → ClockFair σ → EngineFair σ → Inv (τ 0) →
    ∀ n, ∃ m, n ≤ m ∧ (τ m).cmode = .idle

/-! ## The sequencer -/

/-- START: each request, and SEQ_START with the request in REQ_OP, latches the request, clears the results,
takes the image stream for READ and WRITE and goes to RANGE, in one step; while BUSY = 1 it is ignored.
What the sink holds of an earlier READ is not fixed here (log entry 18), and that a request and SEQ_START
are both START is the model's reading (log entry 19) (R27, R35, R87, R193). -/
def Obligations.StartLatchesRequest : Prop :=
  ∀ s : State,
    ∀ p ∈ [(Instr.reqConnectOnly, Op.connectOnly, (0 : BitVec 2)), (.reqRead, .read, 1),
        (.reqWrite, .write, 2), (.reqErase, .erase, 3)],
      (s.busy = false → ∃ kept : List Byte,
        let started : State :=
          { s with
            op := p.2.1, addr0 := s.reqAddr, len0 := s.reqLen, pdelay := s.pwrDelay
            busy := true, done := false, ok := false, session := .disconnected
            err := 0, chunks := 0, xfer := 0, txcalls := 0, failed := false
            streamOpen := decide (p.2.1 = .read ∨ p.2.1 = .write), sink := kept, step := .range }
        exec p.1 s = .next started ∧ (s.reqOp = p.2.2 → exec .seqStart s = .next started)) ∧
      (s.busy = true → exec p.1 s = .next s ∧ exec .seqStart s = .next s)

/-- RANGE, the region check: the sum does not wrap, CONNECT_ONLY is not checked, and neither outcome makes
a call (R61, R194, R208). -/
def Obligations.RangeCheck : Prop :=
  ∀ s : State,
    ((s.op = .read ∨ s.op = .write) → 0x4000 < s.addr0.toNat + s.len0.toNat →
      exec .seqRange s = .next (s.failedAt 4 1 1)) ∧
    (s.op = .erase → 0x4000 ≤ s.addr0.toNat → exec .seqRange s = .next (s.failedAt 4 1 2)) ∧
    ((s.op = .read ∨ s.op = .write) → s.addr0.toNat + s.len0.toNat ≤ 0x4000 →
      exec .seqRange s = .next { s with step := .openPort }) ∧
    (s.op = .erase → s.addr0.toNat < 0x4000 →
      exec .seqRange s = .next { s with step := .openPort }) ∧
    (s.op = .connectOnly → exec .seqRange s = .next { s with step := .openPort })

/-- The handshake's steps around its transmission, waits and await: the line is asserted and released, the
queue is flushed, the session is Connected, and a CONNECT_ONLY session then stops (R196, R197). -/
def Obligations.HandshakeSteps : Prop :=
  ∀ s : State,
    exec (.seqHandshake .assert) s =
      .next { s with ctlAsserted := true, hist := s.hist ++ [.ctlAssert], step := .hs .powerWait } ∧
    exec (.seqHandshake .release) s =
      .next { s with ctlAsserted := false, hist := s.hist ++ [.ctlRelease], step := .hs .await } ∧
    (s.op = .connectOnly →
      exec (.seqHandshake .flush) s =
        .next { s with
          rxq := [], hist := s.hist ++ [.flush], session := .connected, step := .td .close }) ∧
    (s.op ≠ .connectOnly →
      exec (.seqHandshake .flush) s =
        .next { s with
          rxq := [], hist := s.hist ++ [.flush], session := .connected, step := .ld .announceTx })

/-- OP_DISPATCH sets the session state and, for READ and WRITE, the working registers; CONNECT_ONLY, which
never reaches it, is a fault by name, the model's choice (log entry 32) (R36, R37, R200). -/
def Obligations.DispatchByOperation : Prop :=
  ∀ s : State,
    (s.op = .read →
      exec .seqDispatch s =
        .next { s with
          session := .reading, curAddr := s.addr0, remaining := s.len0, step := .rd .next }) ∧
    (s.op = .write →
      exec .seqDispatch s =
        .next { s with
          session := .writing, curAddr := s.addr0, remaining := s.len0, step := .wr .next }) ∧
    (s.op = .erase →
      exec .seqDispatch s = .next { s with session := .erasing, step := .er .build }) ∧
    (s.op = .connectOnly → exec .seqDispatch s = .fault .dispatchConnectOnly)

/-- A READ chunk: with nothing remaining the session goes to teardown, else the chunk length is taken and
the read command of the chunk stands in `txbuf`. RD_COMMIT passes the payload to the sink in one call and
only then counts the chunk; when the sink fails the counters are not advanced (R31, R32, R38, R72, R139,
R160, R162, R201). -/
def Obligations.ReadChunkSteps : Prop :=
  ∀ s : State,
    (s.remaining = 0 → exec (.seqReadChunk .next) s = .next { s with step := .td .close }) ∧
    (s.remaining ≠ 0 →
      let len : Half := BitVec.ofNat 16 (min s.remaining.toNat 0x200)
      ∃ t : State, exec (.seqReadChunk .next) s = .next t ∧ t.step = .rd .settle ∧ t.chunkLen = len ∧
        t.txFrame = Codec.stamped (Codec.readBody s.cfg s.curAddr len) ∧
        (∀ x, 9 ≤ x → t.txbuf.read x = s.txbuf.read x) ∧
        t = { s with chunkLen := t.chunkLen, txbuf := t.txbuf, txlen := 9, step := t.step }) ∧
    (1 ≤ s.chunkLen.toNat → s.chunkLen.toNat ≤ 0x200 →
      let payload := s.rxbuf.readBytes 8 s.chunkLen.toNat
      (s.ans.sinkOk = true →
        exec (.seqReadChunk .commit) s =
          .next { s with
            sink := s.sink ++ payload, hist := s.hist ++ [.sinkWrite payload true]
            chunks := s.chunks + 1, xfer := s.xfer + s.chunkLen.setWidth 32
            curAddr := s.curAddr + s.chunkLen.setWidth 32
            remaining := s.remaining - s.chunkLen.setWidth 32, step := .rd .next }) ∧
      (s.ans.sinkOk = false →
        ∃ kept : List Byte,
          exec (.seqReadChunk .commit) s =
            .next (State.failedAt 5 7 3
              { s with sink := s.sink ++ kept, hist := s.hist ++ [.sinkWrite payload false] })))

/-- A WRITE chunk: each SrcRead brings one image byte, stored at `txbuf[8 + widx]` and nowhere else; End
and err fail with SRC_SHORT and SRC_FAIL. WR_BUILD keeps the image bytes and puts header and trailer around
them, and WR_COMMIT counts the chunk (R31, R32, R50, R73, R138, R163, R203). -/
def Obligations.WriteChunkSteps : Prop :=
  ∀ s : State,
    (s.remaining = 0 → exec (.seqWriteChunk .next) s = .next { s with step := .td .close }) ∧
    (s.remaining ≠ 0 →
      exec (.seqWriteChunk .next) s =
        .next { s with
          chunkLen := BitVec.ofNat 16 (min s.remaining.toNat 0x200), widx := 0, step := .wr .src }) ∧
    (∀ b, s.ans.src = .byte b → s.widx < 0x200 →
      ∃ m : Memory, m.read (8 + s.widx) = b ∧ (∀ x, x ≠ 8 + s.widx → m.read x = s.txbuf.read x) ∧
        exec (.seqWriteChunk .src) s =
          .next { s with
            txbuf := m, widx := s.widx + 1, hist := s.hist ++ [.srcRead (.byte b)]
            step := if s.widx + 1 < s.chunkLen.toNat then .wr .src else .wr .build }) ∧
    (s.ans.src = .finished →
      exec (.seqWriteChunk .src) s =
        .next (State.failedAt 5 8 2 { s with hist := s.hist ++ [.srcRead .finished] })) ∧
    (s.ans.src = .err →
      exec (.seqWriteChunk .src) s =
        .next (State.failedAt 5 8 1 { s with hist := s.hist ++ [.srcRead .err] })) ∧
    (s.chunkLen.toNat ≤ 0x200 →
      ∃ t : State, exec (.seqWriteChunk .build) s = .next t ∧ t.step = .wr .settle ∧
        t.txFrame = Codec.stamped (Codec.writeHeader s.cfg s.curAddr ++ s.imageBytes) ∧
        t.imageBytes = s.imageBytes ∧ t.txlen = 9 + s.chunkLen.toNat ∧
        (∀ x, 9 + s.chunkLen.toNat ≤ x → t.txbuf.read x = s.txbuf.read x) ∧
        t = { s with txbuf := t.txbuf, txlen := t.txlen, step := t.step }) ∧
    exec (.seqWriteChunk .commit) s =
      .next { s with
        chunks := s.chunks + 1, xfer := s.xfer + s.chunkLen.setWidth 32
        curAddr := s.curAddr + s.chunkLen.setWidth 32
        remaining := s.remaining - s.chunkLen.setWidth 32, step := .wr .next }

/-- ERASE: target 0 builds a chip erase, any other target a sector erase with that address, and a good
response counts one chunk (R76, R166, R205). -/
def Obligations.EraseDispatch : Prop :=
  ∀ s : State,
    (∃ t : State, exec (.seqErase .build) s = .next t ∧ t.step = .er .settle ∧
      t.txFrame =
        Codec.stamped (if s.addr0 = 0 then Codec.eraseAllBody s.cfg
          else Codec.eraseSectorBody s.cfg s.addr0) ∧
      (∀ x, 9 ≤ x → t.txbuf.read x = s.txbuf.read x) ∧
      t = { s with txbuf := t.txbuf, txlen := 9, step := t.step }) ∧
    exec (.seqErase .commit) s = .next { s with chunks := 1, step := .td .close }

/-- Teardown's three steps: the port is closed if it is open, the stream if it is open, and FINISH ends the
session with OK = 1 exactly when nothing failed (R137, R140, R206, R250). -/
def Obligations.TeardownSteps : Prop :=
  ∀ s : State,
    (s.portOpen = true →
      exec (.seqTeardown .close) s =
        .next { s with
          portOpen := false, ctlAsserted := false, hist := s.hist ++ [.close s.ans.closeOk]
          step := .td .stream }) ∧
    (s.portOpen = false → exec (.seqTeardown .close) s = .next { s with step := .td .stream }) ∧
    (s.streamOpen = true →
      exec (.seqTeardown .stream) s =
        .next { s with
          streamOpen := false, hist := s.hist ++ [.streamClose], step := .td .finish }) ∧
    (s.streamOpen = false → exec (.seqTeardown .stream) s = .next { s with step := .td .finish }) ∧
    exec (.seqTeardown .finish) s =
      .next { s with
        session := .closed, busy := false, done := true, ok := !s.failed, step := .idle }

/-! ## The host registers and reset -/

/-- The register map. A host read returns the register's value, 0 for CTRL and above 9, REQ_OP its bits
[1:0]. A host write while BUSY = 0 goes to the four request registers; of a read-only register, of CTRL with
bit 0 clear, or above 9 it is ignored, and while BUSY = 1 every write is ignored (R22 to R34, R276). That
the value read stands in `rdata` is the model's choice (log entry 24). -/
def Obligations.HostRegisterMap : Prop :=
  (∀ (s u t : State) (n : Nat), s.nextTurn = (.hostRead n, u) → step s = .next t →
    t.rdata.toNat =
      match n with
      | 0 => s.reqOp.toNat
      | 1 => s.reqAddr.toNat
      | 2 => s.reqLen.toNat
      | 3 => s.pwrDelay.toNat
      | 5 => s.busy.toNat + 2 * s.done.toNat + 4 * s.ok.toNat + 16 * s.session.code.toNat
      | 6 => s.err.toNat
      | 7 => s.chunks.toNat
      | 8 => s.xfer.toNat
      | 9 => s.txcalls.toNat
      | _ => 0) ∧
  ∀ (s u : State) (n : Nat) (v : Word), s.nextTurn = (.hostWrite n v, u) →
    (u.busy = true → step s = .next u) ∧
    (u.busy = false →
      (n = 0 → step s = .next { u with reqOp := v.extractLsb' 0 2 }) ∧
      (n = 1 → step s = .next { u with reqAddr := v }) ∧
      (n = 2 → step s = .next { u with reqLen := v }) ∧
      (n = 3 → step s = .next { u with pwrDelay := v }) ∧
      (n = 4 → v.getLsbD 0 = false → step s = .next u) ∧
      (4 < n → step s = .next u))

/-- ERR's fields, the KIND and CAUSE codes of every cause, the codes of SESSION's eight states, of the
collector's modes and of the two response shapes, and a timeout's CAUSE, which is the code of its mode (R29,
R30, R143, R151, R241 to R243). -/
def Obligations.ErrFields : Prop :=
  (∀ (c : Cause) (st : BitVec 4),
    errKind (errWord c st) = c.kind.code ∧ errStage (errWord c st) = st ∧
      errCause (errWord c st) = c.code ∧
      (errWord c st).toNat = c.kind.code.toNat + 16 * st.toNat + 256 * c.code.toNat) ∧
  ([Cause.openFail, .writeFail, .shortWrite, .readFail].map fun c => (c.kind.code, c.code)) =
    [(1, 1), (1, 2), (1, 3), (1, 4)] ∧
  ([Cause.timeoutEq, .timeoutAck, .timeoutCount, .timeoutFrame].map fun c => (c.kind.code, c.code)) =
    [(2, 1), (2, 2), (2, 3), (2, 4)] ∧
  ([Cause.wrongByte, .nack, .badMarker, .badStatus, .badLength, .lenMismatch, .badChecksum].map
      fun c => (c.kind.code, c.code)) =
    [(3, 1), (3, 2), (3, 3), (3, 4), (3, 5), (3, 6), (3, 7)] ∧
  ([Cause.region, .sector].map fun c => (c.kind.code, c.code)) = [(4, 1), (4, 2)] ∧
  ([Cause.srcFail, .srcShort, .sinkFail].map fun c => (c.kind.code, c.code)) =
    [(5, 1), (5, 2), (5, 3)] ∧
  [Session.disconnected, .connected, .loaderInstalled, .ready, .reading, .writing, .erasing,
      .closed].map Session.code = [0, 1, 2, 3, 4, 5, 6, 7] ∧
  [CMode.idle, .eq, .ack, .count, .frame].map CMode.code = [0, 1, 2, 3, 4] ∧
  [Shape.read, .ack9].map Codec.shapeCode = [0, 1] ∧
  ∀ m : CMode, m ≠ .idle →
    m.timeoutCause.kind = .protocolTimeout ∧ m.timeoutCause.code.toNat = m.code.toNat

/-- Reset leaves every register of R49's table at its value. At power-on this holds for every configuration,
and the engine has no step. The reset input does it at once, whatever `step` holds; only the clock runs on,
and the history then holds the Reset event alone: that last is the model's reading of R49 and R270 (log
entry 13) (R48, R49, R270, R271, R272). -/
def Obligations.ResetValues : Prop :=
  (∀ s u : State, s.nextTurn = (.rst, u) →
    ∃ t : State, step s = .next t ∧
      t.reqOp = 0 ∧ t.reqAddr = 0 ∧ t.reqLen = 0 ∧ t.pwrDelay = 0 ∧ t.statusWord = 0 ∧
      t.err = 0 ∧ t.chunks = 0 ∧ t.xfer = 0 ∧ t.txcalls = 0 ∧
      t.op = .connectOnly ∧ t.addr0 = 0 ∧ t.len0 = 0 ∧ t.pdelay = 0 ∧
      t.curAddr = 0 ∧ t.remaining = 0 ∧ t.chunkLen = 0 ∧ t.widx = 0 ∧ t.t0 = 0 ∧
      t.step = .idle ∧ t.failed = false ∧
      t.cmode = .idle ∧ t.cexp = 0 ∧ t.cshape = .read ∧ t.ctimeout = 0 ∧ t.cidx = 0 ∧ t.cneed = 0 ∧
      t.cresult = .none ∧ t.txlen = 0 ∧ t.rxq = [] ∧
      t.portOpen = false ∧ t.ctlAsserted = false ∧ t.streamOpen = false ∧ t.irq = false ∧
      t.now = s.now ∧ t.cfg = s.cfg ∧ t.hist = [.reset]) ∧
  ∀ c : Config.Params,
    let t := State.resetWith c
    t.reqOp = 0 ∧ t.reqAddr = 0 ∧ t.reqLen = 0 ∧ t.pwrDelay = 0 ∧ t.statusWord = 0 ∧
    t.err = 0 ∧ t.chunks = 0 ∧ t.xfer = 0 ∧ t.txcalls = 0 ∧
    t.op = .connectOnly ∧ t.addr0 = 0 ∧ t.len0 = 0 ∧ t.pdelay = 0 ∧
    t.curAddr = 0 ∧ t.remaining = 0 ∧ t.chunkLen = 0 ∧ t.widx = 0 ∧ t.t0 = 0 ∧
    t.step = .idle ∧ t.failed = false ∧
    t.cmode = .idle ∧ t.cexp = 0 ∧ t.cshape = .read ∧ t.ctimeout = 0 ∧ t.cidx = 0 ∧ t.cneed = 0 ∧
    t.cresult = .none ∧ t.txlen = 0 ∧ t.rxq = [] ∧
    t.portOpen = false ∧ t.ctlAsserted = false ∧ t.streamOpen = false ∧ t.irq = false ∧
    t.hist = [] ∧ t.cfg = c ∧ t.engineCode = none

/-! ## Memory and chunks -/

/-- A frame buffer: a read after a write gives the written byte there and the old byte elsewhere, a write
inside the buffer keeps the canonical form, and equal contents are equal data (R44, R60). The canonical form
is the model's (log entry 12). -/
def Obligations.BufferMemory : Prop :=
  (∀ (m : Memory) (a x : Nat) (b : Byte),
    (Memory.write a b m).read x = if x = a then b else m.read x) ∧
  (∀ (m : Memory) (a : Nat) (b : Byte), m.wf = true → a ≤ 520 → (Memory.write a b m).wf = true) ∧
  ∀ m m' : Memory, m.wf = true → m'.wf = true → (∀ x, m.read x = m'.read x) → m = m'

/-- CHUNK_SPLIT: an n-byte transfer at a is cut into ceil(n / 0x200) chunks that cover it in order, every
one but the last of 0x200 bytes, none empty (R160, R161). -/
def Obligations.ChunkSplitCoversRegion : Prop :=
  ∀ a n : Nat,
    (chunkSplit a n).length = (n + 0x1FF) / 0x200 ∧
    ((chunkSplit a n).map Prod.snd).sum = n ∧
    ∀ (k : Nat) (c : Nat × Nat), (chunkSplit a n)[k]? = some c →
      c = (a + 0x200 * k, min 0x200 (n - 0x200 * k)) ∧ 1 ≤ c.2 ∧ c.1 + c.2 ≤ a + n ∧
        (k + 1 < (chunkSplit a n).length → c.2 = 0x200)

/-- The chunk in flight is the chunk that CHUNK_SPLIT gives for the number of chunks committed; its
addresses stay inside the flash and nothing wraps (R61, R160, R161). -/
def Obligations.CurrentChunkIsSplitEntry : Prop :=
  ∀ s : State, Inv s → s.step.inChunk = true →
    (chunkSplit s.addr0.toNat s.len0.toNat)[s.chunks.toNat]? =
      some (s.curAddr.toNat, s.chunkLen.toNat) ∧
    s.curAddr.toNat + s.chunkLen.toNat ≤ 0x4000 ∧
    (s.curAddr + s.chunkLen.setWidth 32).toNat = s.curAddr.toNat + s.chunkLen.toNat ∧
    (s.remaining - s.chunkLen.setWidth 32).toNat < s.remaining.toNat

/-! ## The whole machine -/

/-- The invariant of the block holds after reset, for every configuration (R44, R49), with the configuration
and the buffers the model gives a reset state (log entries 1, 12). -/
def Obligations.ResetHasInvariant : Prop :=
  (∀ c : Config.Params, Inv (State.resetWith c)) ∧ Inv State.reset

/-- Every step of every agent keeps the invariant: the buffers stay canonical and in bounds, BUSY is set
exactly while a session runs, ERR holds a diagnostic of R244's table exactly when the session failed, the
port and the stream are held from acquisition to release, the await in progress is the step's own, the
region check holds behind RANGE, the counters and working registers obey the chunk laws, the sink of a READ
holds exactly the committed bytes, and a chunk is committed only behind a response that passed every check.
Three parts rest on the model's choices: BuffersOk on the canonical form (log entry 12), ClockOk on `waiting`
(log entry 10), and SinkOk on a sink that START of a READ empties (log entry 18). -/
def Obligations.StepKeepsInvariant : Prop :=
  ∀ s t : State, Inv s → step s = .next t → Inv t

/-- From a state of the invariant no step faults, and a step is refused only for a Transport answer that is
not legal (R132, R133, R192). -/
def Obligations.InvariantNeverFaults : Prop :=
  ∀ s : State, Inv s →
    (∀ f, step s ≠ .fault f) ∧
    ∀ r, step s = .refused r → r = .txCountAboveLength ∨ r = .pollAnswerIllegal

/-- Counts of a session that ended well: in every state of the invariant with DONE and OK, and so after every
run from power-on, for every configuration and every schedule of the agents, TXCALLS, CHUNKS and XFER are the
numbers of R211, and a READ's sink holds exactly as many bytes as were asked for (R284). That the sink is
empty when a READ starts is the model's choice (log entry 18). -/
def Obligations.SuccessfulSessionCounts : Prop :=
  (∀ s : State, Inv s → s.done = true → s.ok = true → SessionCounts s) ∧
  ∀ (c : Config.Params) (ms : List Config.Turn) (k : Nat) (t : State),
    Host.Core.run core k { State.resetWith c with inputs := ms } = .next t → t.done = true →
    t.ok = true → SessionCounts t

/-- A CONNECT_ONLY session can end well under every configuration and every power-up delay: some schedule
of the agents takes the block from power-on through the handshake of a CONNECT_ONLY session with that delay
to DONE and OK (R26, R35, R196, R197, R206). The schedule is the model's (log entry 3), and so is the empty
wire at power-on (log entry 16). -/
def Obligations.ConnectOnlyCanSucceed : Prop :=
  ∀ (c : Config.Params) (pd : Word), ∃ (ms : List Config.Turn) (k : Nat) (t : State),
    Host.Core.run core k { State.resetWith c with inputs := ms } = .next t ∧
      t.op = .connectOnly ∧ t.pdelay = pd ∧ t.statusWord = 0x76 ∧ t.err = 0 ∧ t.txcalls = 1 ∧ t.portOpen = false ∧ t.irq = true ∧
      t.txwire = Codec.assetBytes c .training

/-- The clock is advanced by one by each Clock step and by nothing else (R48). -/
def Obligations.OnlyClockAdvancesNow : Prop :=
  ∀ (s u t : State) (m : Config.Turn), s.nextTurn = (m, u) → step s = .next t →
    t.now = if m = .clock then s.now + 1 else s.now

/-- One engine step appends at most one event, and no other agent but the reset input touches the history
(R16, R17, R78, R192); after that input the Reset event stands alone (log entry 13). -/
def Obligations.HistoryGrowsByOne : Prop :=
  ∀ (s u t : State) (m : Config.Turn), s.nextTurn = (m, u) → step s = .next t →
    (m = .rst ∧ t.hist = [.reset]) ∨
    ((∃ a, m = .engine a) ∧ ∃ es : List Event, es.length ≤ 1 ∧ t.hist = s.hist ++ es) ∨
    (m ≠ .rst ∧ (∀ a, m ≠ .engine a) ∧ t.hist = s.hist)

/-- TXCALLS counts exactly the transmissions, whatever their answers, and only a transmission puts bytes on
the wire: all of the frame, the accepted part, or some leading part (R33, R132). -/
def Obligations.TxcallsCountsTransmissions : Prop :=
  ∀ (s u t : State) (a : Config.Answers), s.nextTurn = (.engine a, u) → step s = .next t →
    (t.txcalls = s.txcalls ∧ t.txwire = s.txwire ∧
      ∃ es : List Event, t.hist = s.hist ++ es ∧ ∀ bs x, Event.txWrite bs x ∉ es) ∨
    (t.txcalls = s.txcalls + 1 ∧ ∃ bs sent : List Byte,
      t.hist = s.hist ++ [.txWrite bs a.tx] ∧ bs ≠ [] ∧ t.txwire = s.txwire ++ sent ∧
      sent <+: bs ∧ ∀ k, a.tx = .count k → sent.length = k)

/-- The request registers change only by host writes, the latched request only by START, and the
configuration never (R20, R24, R35, R270). -/
def Obligations.WhoWritesTheRequest : Prop :=
  ∀ (s u t : State) (m : Config.Turn), s.nextTurn = (m, u) → step s = .next t → m ≠ .rst →
    t.cfg = s.cfg ∧
    ((∀ n v, m ≠ .hostWrite n v) →
      t.reqOp = s.reqOp ∧ t.reqAddr = s.reqAddr ∧ t.reqLen = s.reqLen ∧ t.pwrDelay = s.pwrDelay) ∧
    ((∀ v, m = .hostWrite 4 v → v.getLsbD 0 = true → s.busy = true) →
      t.op = s.op ∧ t.addr0 = s.addr0 ∧ t.len0 = s.len0 ∧ t.pdelay = s.pdelay)

/-- The session reads only the latched copies: an engine step, scheduled or drawn, does the same whatever the
request registers hold (R35). -/
def Obligations.EngineIgnoresRequestRegisters : Prop :=
  ∀ (s u : State) (a : Config.Answers), s.nextTurn = (.engine a, u) →
    ∀ (o : BitVec 2) (x y z : Word),
      let hidden (v : State) : State := { v with reqOp := o, reqAddr := x, reqLen := y, pwrDelay := z }
      step (hidden s) =
        match step s with
        | .next t => .next (hidden t)
        | .fault f => .fault f
        | .refused r => .refused r

/-- The successor relation: an engine step stays where it is, goes to a successor of R207's table, or takes
a failure to TEARDOWN_CLOSE (R192, R207, R246). -/
def Obligations.EngineFollowsSuccessorTable : Prop :=
  ∀ (s u t : State) (a : Config.Answers), Inv s → s.nextTurn = (.engine a, u) → step s = .next t →
    t.step = s.step ∨ (s.step ≠ .idle ∧ t.step ∈ s.step.nexts) ∨
      (t.step = .td .close ∧ s.failed = false ∧ t.failed = true)

/-- SESSION moves only along the order of R29: START makes it Disconnected, then Connected, LoaderInstalled,
Ready, one of the three operations, and Closed from anywhere (R29, R193, R206). -/
def Obligations.SessionFollowsOrder : Prop :=
  ∀ (s u t : State) (a : Config.Answers), Inv s → s.nextTurn = (.engine a, u) → step s = .next t →
    t.session ≠ s.session →
    (s.session, t.session) ∈
        [(Session.disconnected, Session.connected), (.connected, .loaderInstalled),
          (.loaderInstalled, .ready), (.ready, .reading), (.ready, .writing), (.ready, .erasing)] ∨
      (t.session = .closed ∧ s.step = .td .finish)

/-- ERR is written once per session, at its first failure, and only with a diagnostic that R244's table has
for the step; it is cleared only by START and reset (R30, R42, R244, R246). -/
def Obligations.ErrWrittenOnceFromTable : Prop :=
  ∀ (s u t : State) (m : Config.Turn), Inv s → s.nextTurn = (m, u) → step s = .next t →
    t.err ≠ s.err →
    (m = .rst ∧ t.err = 0) ∨
      ((∃ v, m = .hostWrite 4 v ∧ v.getLsbD 0 = true) ∧ s.busy = false ∧ t.err = 0) ∨
      ((∃ a, m = .engine a) ∧ s.failed = false ∧ t.failed = true ∧
        ∃ c ∈ raises s.step, t.err = errWord c (stageOf s.op s.step))

/-- After a failure nothing of the remaining sequence runs: no engine step transmits, counts, commits or
records another failure, and the only calls are Close and StreamClose (R209, R210, R246, R248). -/
def Obligations.FailureAbortsTheRest : Prop :=
  ∀ (s u t : State) (a : Config.Answers), Inv s → s.failed = true → s.nextTurn = (.engine a, u) →
    step s = .next t →
    t.failed = true ∧ t.err = s.err ∧ t.txcalls = s.txcalls ∧ t.chunks = s.chunks ∧ t.xfer = s.xfer ∧
    t.txwire = s.txwire ∧ t.sink = s.sink ∧ t.rxq = s.rxq ∧ t.step.working = false ∧
    (t.hist = s.hist ∨ (∃ x, t.hist = s.hist ++ [.close x]) ∨ t.hist = s.hist ++ [.streamClose])

/-- The teardown guarantee: from TEARDOWN_CLOSE three engine steps, whatever the answers, release each held
resource exactly once and end the session, keeping its results (R190, R206, R250). -/
def Obligations.TeardownReleasesEverything : Prop :=
  ∀ (s : State) (a b c : Config.Answers) (ms : List Config.Turn), s.step = .td .close →
    s.cmode = .idle → s.inputs = .engine a :: .engine b :: .engine c :: ms →
    ∃ t : State, Host.Core.run core 3 s = .next t ∧ t.step = .idle ∧ t.busy = false ∧ t.done = true ∧
      t.ok = !s.failed ∧ t.session = .closed ∧ t.portOpen = false ∧ t.streamOpen = false ∧
      (s.portOpen = true → t.ctlAsserted = false) ∧ t.err = s.err ∧ t.chunks = s.chunks ∧
      t.xfer = s.xfer ∧ t.txcalls = s.txcalls ∧ t.inputs = ms ∧
      t.hist =
        s.hist ++ (if s.portOpen then [.close a.closeOk] else []) ++
          (if s.streamOpen then [.streamClose] else [])

/-- Every flash command that is sent is one of the four forms: the bytes handed to the Transport at a
chunk's or erase's transmission decode to the command of the current chunk or of the erase target
(R76, R91 to R94, R103, R160, R166). -/
def Obligations.FlashCommandsAreLegal : Prop :=
  ∀ (s u t : State) (a : Config.Answers), Inv s → s.nextTurn = (.engine a, u) → step s = .next t →
    s.step = .rd .tx ∨ s.step = .wr .tx ∨ s.step = .er .tx →
    ∃ (bs : List Byte) (i : Instr), t.hist = s.hist ++ [.txWrite bs a.tx] ∧
      decode s.cfg (.command bs) = .ok i ∧
      (s.step = .rd .tx → i = .cmdRead s.curAddr s.chunkLen) ∧
      (s.step = .wr .tx → i = .cmdWrite s.curAddr s.imageBytes) ∧
      (s.step = .er .tx → i = if s.addr0 = 0 then .cmdEraseAll else .cmdEraseSector s.addr0)

/-- The sink grows and a chunk is counted only at a commit step, behind a whole response with the right
marker, status 0x00, matching trailer and, for READ, the requested length; what the sink takes of a good
SinkWrite is that response's payload (R72, R73, R169, R202); of a failed one it keeps any bytes (log entry
17). -/
def Obligations.CommitNeedsValidatedResponse : Prop :=
  ∀ (s u t : State) (a : Config.Answers), Inv s → s.nextTurn = (.engine a, u) → step s = .next t →
    t.sink ≠ s.sink ∨ t.chunks ≠ s.chunks →
    ∃ n : Nat,
      ((s.step = .rd .commit ∧ n = 8 + s.chunkLen.toNat + 1 ∧
          (s.rxbuf.read 6).toNat + 256 * (s.rxbuf.read 7).toNat = s.chunkLen.toNat) ∨
        ((s.step = .wr .commit ∨ s.step = .er .commit) ∧ n = 9 ∧ t.sink = s.sink)) ∧
      s.rxbuf.read 0 = s.cfg.raw.marker ∧ s.rxbuf.read 1 = 0x00 ∧
      byteSum (s.rxbuf.readBytes 0 (n - 1)) % 256 = (s.rxbuf.read (n - 1)).toNat ∧
      (s.step = .rd .commit → a.sinkOk = true →
        t.sink = s.sink ++ s.rxbuf.readBytes 8 s.chunkLen.toNat)

/-- The interrupt output rises only at FINISH and falls only at START or reset (R253). -/
def Obligations.IrqRisesAtFinish : Prop :=
  ∀ (s u t : State) (m : Config.Turn), s.nextTurn = (m, u) → step s = .next t →
    (s.irq = false → t.irq = true → (∃ a, m = .engine a) ∧ s.step = .td .finish) ∧
    (s.irq = true → t.irq = false →
      m = .rst ∨ ∃ v, m = .hostWrite 4 v ∧ v.getLsbD 0 = true ∧ s.busy = false)
end

