-- ==== Sys2Proof/Laws/Codec.lean ====
section
/-!
SUPPORT. The field coders undo each other (R14), and a stamped frame has a good trailer (R88, R123).
-/

namespace Sys2Proof.Codec

/-- The bits of a decoded 16-bit field. -/
theorem getLsbD_rd16 (x y : Byte) (i : Nat) :
    (rd16 x y).getLsbD i = if i < 8 then x.getLsbD i else y.getLsbD (i - 8) := by
  unfold rd16
  rw [BitVec.getLsbD_append]

/-- The bits of a decoded 32-bit field. -/
theorem getLsbD_rd32 (x y z w : Byte) (i : Nat) :
    (rd32 x y z w).getLsbD i =
      if i < 16 then (if i < 8 then x.getLsbD i else y.getLsbD (i - 8))
      else if i - 16 < 8 then z.getLsbD (i - 16) else w.getLsbD (i - 16 - 8) := by
  unfold rd32
  rw [BitVec.getLsbD_append, BitVec.getLsbD_append, BitVec.getLsbD_append]

/-- Reading back the two bytes of a 16-bit field (R14). -/
theorem rd16_le16 (n : Half) : rd16 (n.extractLsb' 0 8) (n.extractLsb' 8 8) = n := by
  refine BitVec.eq_of_getLsbD_eq fun i hi => ?_
  rw [getLsbD_rd16]
  by_cases h : i < 8
  · simp [h]
  · simp [h, show i - 8 < 8 by omega, show 8 + (i - 8) = i by omega]

/-- Reading back the four bytes of a 32-bit field (R14). -/
theorem rd32_le32 (a : Word) :
    rd32 (a.extractLsb' 0 8) (a.extractLsb' 8 8) (a.extractLsb' 16 8) (a.extractLsb' 24 8) = a := by
  refine BitVec.eq_of_getLsbD_eq fun i hi => ?_
  rw [getLsbD_rd32]
  by_cases h1 : i < 8
  · simp [h1, show i < 16 by omega]
  by_cases h2 : i < 16
  · simp [h1, h2, show i - 8 < 8 by omega, show 8 + (i - 8) = i by omega]
  by_cases h3 : i < 24
  · simp [h2, show i - 16 < 8 by omega, show 16 + (i - 16) = i by omega]
  · simp [h2, show ¬ i - 16 < 8 by omega, show i - 16 - 8 < 8 by omega,
      show 24 + (i - 16 - 8) = i by omega]

/-- Coding a decoded 16-bit field gives its bytes (R14). -/
theorem le16_rd16 (x y : Byte) : le16 (rd16 x y) = [x, y] := by
  have h0 : (rd16 x y).extractLsb' 0 8 = x := BitVec.eq_of_getLsbD_eq fun i hi => by
    rw [BitVec.getLsbD_extractLsb', getLsbD_rd16]
    simp [hi]
  have h1 : (rd16 x y).extractLsb' 8 8 = y := BitVec.eq_of_getLsbD_eq fun i hi => by
    rw [BitVec.getLsbD_extractLsb', getLsbD_rd16]
    simp [hi]
  rw [le16, h0, h1]

/-- Coding a decoded 32-bit field gives its bytes (R14). -/
theorem le32_rd32 (x y z w : Byte) : le32 (rd32 x y z w) = [x, y, z, w] := by
  have h0 : (rd32 x y z w).extractLsb' 0 8 = x := BitVec.eq_of_getLsbD_eq fun i hi => by
    rw [BitVec.getLsbD_extractLsb', getLsbD_rd32]
    simp [hi, show i < 16 by omega]
  have h1 : (rd32 x y z w).extractLsb' 8 8 = y := BitVec.eq_of_getLsbD_eq fun i hi => by
    rw [BitVec.getLsbD_extractLsb', getLsbD_rd32]
    simp [hi, show 8 + i < 16 by omega]
  have h2 : (rd32 x y z w).extractLsb' 16 8 = z := BitVec.eq_of_getLsbD_eq fun i hi => by
    rw [BitVec.getLsbD_extractLsb', getLsbD_rd32]
    simp [hi]
  have h3 : (rd32 x y z w).extractLsb' 24 8 = w := BitVec.eq_of_getLsbD_eq fun i hi => by
    rw [BitVec.getLsbD_extractLsb', getLsbD_rd32]
    simp [hi, show ¬ 24 + i < 16 by omega, show ¬ 24 + i - 16 < 8 by omega,
      show 24 + i - 16 - 8 = i by omega]
  rw [le32, h0, h1, h2, h3]

/-- A frame with its stamp passes CHECKSUM_VALIDATE (R122, R123). -/
theorem trailerOk_stamped (body : List Byte) : trailerOk (stamped body) = true := by
  simp [trailerOk, stamped]

/-- A byte list that passes CHECKSUM_VALIDATE is a stamped body (R122, R123). -/
theorem stamped_of_trailerOk {bs : List Byte} (h : trailerOk bs = true) : bs = stamped bs.dropLast := by
  unfold trailerOk at h
  split at h
  case h_1 c hc =>
    have hne : bs ≠ [] := by
      intro he
      simp [he] at hc
    have hl : bs.getLast hne = c := by
      rw [List.getLast?_eq_some_getLast hne] at hc
      simpa using hc
    have := List.dropLast_append_getLast hne
    rw [hl] at this
    rw [stamped, ← beq_iff_eq.1 h, this]
  case h_2 => simp at h

end Sys2Proof.Codec
end

