-- ==== Sys2Proof/Laws/Config.lean ====
section
/-!
SUPPORT. The fixed sizes as numerals, for arithmetic.
-/

namespace Sys2Proof.Config

@[simp] theorem capacity_eq : capacity = 16384 := rfl
@[simp] theorem chunkMax_eq : chunkMax = 512 := rfl
@[simp] theorem hdrLen_eq : hdrLen = 8 := rfl
@[simp] theorem ack9Len_eq : ack9Len = 9 := rfl
@[simp] theorem trainingLen_eq : trainingLen = 96 := rfl
@[simp] theorem execCount_eq : execCount = 11 := rfl
@[simp] theorem bufLen_eq : bufLen = 521 := rfl

end Sys2Proof.Config
end

