-- ==== Sys2Proof/Laws/Memory.lean ====
section
/-!
SUPPORT. The laws of the frame buffers: a read after a write, and the canonical form that every memory
operation keeps.
-/

namespace Sys2Proof.Machine

@[simp] theorem Memory.read_nil (a : Nat) : Memory.read [] a = Memory.blank := rfl

theorem Memory.read_remove_self (a : Nat) (m : Memory) : (m.remove a).read a = Memory.blank := by
  induction m with
  | nil => rfl
  | cons c m ih =>
    obtain ⟨k, v⟩ := c
    by_cases h : k = a <;> simp [Memory.remove, Memory.read, h, ih]

theorem Memory.read_remove_other {a a' : Nat} (h : a' ≠ a) (m : Memory) :
    (m.remove a).read a' = m.read a' := by
  induction m with
  | nil => rfl
  | cons c m ih =>
    obtain ⟨k, v⟩ := c
    by_cases hk : k = a
    · have : k ≠ a' := fun e => h (e ▸ hk ▸ rfl)
      simp [Memory.remove, Memory.read, hk, ih, show a ≠ a' from fun e => h e.symm]
    · simp [Memory.remove, Memory.read, hk, ih]

theorem Memory.read_insert_self {a : Nat} {b : Byte} {m : Memory} (h : ∀ c ∈ m, c.1 ≠ a) :
    (m.insert a b).read a = b := by
  induction m with
  | nil => simp [Memory.insert, Memory.read]
  | cons c m ih =>
    obtain ⟨k, v⟩ := c
    have hk : k ≠ a := h (k, v) (by simp)
    have ih := ih fun c hc => h c (by simp [hc])
    by_cases hlt : a < k <;> simp [Memory.insert, Memory.read, hlt, hk, ih]

theorem Memory.read_insert_other {a a' : Nat} (h : a' ≠ a) (b : Byte) (m : Memory) :
    (m.insert a b).read a' = m.read a' := by
  have h' : a ≠ a' := fun e => h e.symm
  induction m with
  | nil => simp [Memory.insert, Memory.read, h']
  | cons c m ih =>
    obtain ⟨k, v⟩ := c
    by_cases hlt : a < k <;> simp [Memory.insert, Memory.read, hlt, h', ih]

theorem Memory.ne_of_mem_remove {a : Nat} {m : Memory} : ∀ c ∈ m.remove a, c.1 ≠ a := by
  induction m with
  | nil => simp [Memory.remove]
  | cons c m ih =>
    obtain ⟨k, v⟩ := c
    by_cases hk : k = a
    · simpa [Memory.remove, hk] using ih
    · intro c hc
      simp only [Memory.remove, hk, if_false, List.mem_cons] at hc
      rcases hc with rfl | hc
      · exact hk
      · exact ih c hc

theorem Memory.mem_of_mem_remove {a : Nat} {m : Memory} : ∀ c ∈ m.remove a, c ∈ m := by
  induction m with
  | nil => simp [Memory.remove]
  | cons c m ih =>
    obtain ⟨k, v⟩ := c
    intro c hc
    by_cases hk : k = a
    · simp only [Memory.remove, hk, if_true] at hc
      exact List.mem_cons_of_mem _ (ih c hc)
    · simp only [Memory.remove, hk, if_false, List.mem_cons] at hc
      rcases hc with rfl | hc
      · simp
      · exact List.mem_cons_of_mem _ (ih c hc)

/-- A read of the stored address gives the stored byte. -/
@[simp] theorem Memory.read_write_self (a : Nat) (b : Byte) (m : Memory) :
    (Memory.write a b m).read a = b := by
  unfold Memory.write
  split
  · next h => rw [Memory.read_remove_self, h]
  · exact Memory.read_insert_self Memory.ne_of_mem_remove

/-- A write leaves every other address alone. -/
@[simp] theorem Memory.read_write_other {a a' : Nat} (h : a' ≠ a) (b : Byte) (m : Memory) :
    (Memory.write a b m).read a' = m.read a' := by
  unfold Memory.write
  split
  · exact Memory.read_remove_other h m
  · rw [Memory.read_insert_other h, Memory.read_remove_other h]

/-! ## The canonical form -/

@[simp] theorem Memory.wf_nil : Memory.wf [] = true := rfl

theorem Memory.wf_cons {k : Nat} {v : Byte} {m : Memory} :
    Memory.wf ((k, v) :: m) = true ↔
      v ≠ Memory.blank ∧ k < Config.bufLen ∧ (∀ c ∈ m, k < c.1) ∧ Memory.wf m = true := by
  simp [Memory.wf, List.all_eq_true, and_assoc]

theorem Memory.wf_remove {a : Nat} {m : Memory} (h : m.wf = true) : (m.remove a).wf = true := by
  induction m with
  | nil => rfl
  | cons c m ih =>
    obtain ⟨k, v⟩ := c
    obtain ⟨hv, hk, hlt, hm⟩ := Memory.wf_cons.1 h
    unfold Memory.remove
    split
    · exact ih hm
    · exact Memory.wf_cons.2 ⟨hv, hk, fun c hc => hlt c (Memory.mem_of_mem_remove c hc), ih hm⟩

theorem Memory.mem_insert {a : Nat} {b : Byte} {m : Memory} {c : Host.Cell} :
    c ∈ m.insert a b ↔ c = (a, b) ∨ c ∈ m := by
  induction m with
  | nil => simp [Memory.insert]
  | cons d m ih =>
    obtain ⟨k, v⟩ := d
    unfold Memory.insert
    split
    · simp
    · simp only [List.mem_cons, ih]
      tauto

theorem Memory.wf_insert {a : Nat} {b : Byte} {m : Memory} (h : m.wf = true)
    (ha : a < Config.bufLen) (hb : b ≠ Memory.blank) (hne : ∀ c ∈ m, c.1 ≠ a) :
    (m.insert a b).wf = true := by
  induction m with
  | nil => exact Memory.wf_cons.2 ⟨hb, ha, by simp, rfl⟩
  | cons c m ih =>
    obtain ⟨k, v⟩ := c
    obtain ⟨hv, hk, hlt, hm⟩ := Memory.wf_cons.1 h
    unfold Memory.insert
    split
    · next hak =>
      refine Memory.wf_cons.2 ⟨hb, ha, fun c hc => ?_, h⟩
      rcases List.mem_cons.1 hc with rfl | hc
      · exact hak
      · exact lt_trans hak (hlt c hc)
    · next hak =>
      have hka : k ≠ a := hne (k, v) (by simp)
      refine Memory.wf_cons.2 ⟨hv, hk, fun c hc => ?_, ih hm fun c hc => hne c (by simp [hc])⟩
      rcases Memory.mem_insert.1 hc with rfl | hc
      · exact lt_of_le_of_ne (not_lt.1 hak) hka
      · exact hlt c hc

/-- A store inside the buffer keeps the canonical form. -/
theorem Memory.wf_write {a : Nat} {b : Byte} {m : Memory} (h : m.wf = true)
    (ha : a < Config.bufLen) : (Memory.write a b m).wf = true := by
  unfold Memory.write
  split
  · exact Memory.wf_remove h
  · next hb => exact Memory.wf_insert (Memory.wf_remove h) ha hb Memory.ne_of_mem_remove

/-- A store of several bytes inside the buffer keeps the canonical form. -/
theorem Memory.wf_writeBytes {bs : List Byte} {a : Nat} {m : Memory} (h : m.wf = true)
    (ha : a + bs.length ≤ Config.bufLen) : (m.writeBytes a bs).wf = true := by
  induction bs generalizing a m with
  | nil => exact h
  | cons b bs ih =>
    simp only [List.length_cons] at ha
    exact ih (Memory.wf_write h (by omega)) (by omega)

/-! ## Slices -/

theorem Memory.read_writeBytes_out {bs : List Byte} {a x : Nat} (m : Memory)
    (h : x < a ∨ a + bs.length ≤ x) : (m.writeBytes a bs).read x = m.read x := by
  induction bs generalizing a m with
  | nil => rfl
  | cons b bs ih =>
    simp only [List.length_cons] at h
    rw [Memory.writeBytes, ih _ (by omega), Memory.read_write_other (by omega)]

@[simp] theorem Memory.length_readBytes (m : Memory) (a n : Nat) :
    (m.readBytes a n).length = n := by
  induction n generalizing a with
  | zero => rfl
  | succ n ih => simp [Memory.readBytes, ih]

theorem Memory.readBytes_congr {m m' : Memory} {a n : Nat}
    (h : ∀ x, a ≤ x → x < a + n → m.read x = m'.read x) : m.readBytes a n = m'.readBytes a n := by
  induction n generalizing a with
  | zero => rfl
  | succ n ih =>
    rw [Memory.readBytes, Memory.readBytes, h a (by omega) (by omega),
      ih fun x h1 h2 => h x (by omega) (by omega)]

theorem Memory.readBytes_add (m : Memory) (a n k : Nat) :
    m.readBytes a (n + k) = m.readBytes a n ++ m.readBytes (a + n) k := by
  induction n generalizing a with
  | zero => simp [Memory.readBytes]
  | succ n ih =>
    rw [Nat.add_right_comm, Memory.readBytes, Memory.readBytes, ih, List.cons_append]
    rw [show a + 1 + n = a + (n + 1) by omega]

/-- The stored bytes read back. -/
theorem Memory.readBytes_writeBytes (bs : List Byte) (a : Nat) (m : Memory) :
    (m.writeBytes a bs).readBytes a bs.length = bs := by
  induction bs generalizing a m with
  | nil => rfl
  | cons b bs ih =>
    rw [Memory.writeBytes, List.length_cons, Memory.readBytes, ih,
      Memory.read_writeBytes_out _ (by omega), Memory.read_write_self]

/-- A slice outside the stored bytes is unchanged. -/
theorem Memory.readBytes_writeBytes_out {bs : List Byte} {a x n : Nat} (m : Memory)
    (h : x + n ≤ a ∨ a + bs.length ≤ x) : (m.writeBytes a bs).readBytes x n = m.readBytes x n :=
  Memory.readBytes_congr fun y h1 h2 => Memory.read_writeBytes_out m (by omega)

/-- A slice that does not hold the stored address is unchanged. -/
theorem Memory.readBytes_write_out {a x n : Nat} {b : Byte} (m : Memory)
    (h : a < x ∨ x + n ≤ a) : (Memory.write a b m).readBytes x n = m.readBytes x n :=
  Memory.readBytes_congr fun y h1 h2 => Memory.read_write_other (by omega) b m

end Sys2Proof.Machine
end

