-- ==== Sys2Proof/Laws/State.lean ====
section
/-!
SUPPORT. For each named update of the state, one lemma per field: what the field holds after it.
-/

namespace Sys2Proof.Machine

variable (s : State)

/-! ## `goto` -/

@[simp] theorem State.goto_reqOp (st : SeqStep) : (s.goto st).reqOp = s.reqOp := rfl
@[simp] theorem State.goto_reqAddr (st : SeqStep) : (s.goto st).reqAddr = s.reqAddr := rfl
@[simp] theorem State.goto_reqLen (st : SeqStep) : (s.goto st).reqLen = s.reqLen := rfl
@[simp] theorem State.goto_pwrDelay (st : SeqStep) : (s.goto st).pwrDelay = s.pwrDelay := rfl
@[simp] theorem State.goto_busy (st : SeqStep) : (s.goto st).busy = s.busy := rfl
@[simp] theorem State.goto_done (st : SeqStep) : (s.goto st).done = s.done := rfl
@[simp] theorem State.goto_ok (st : SeqStep) : (s.goto st).ok = s.ok := rfl
@[simp] theorem State.goto_session (st : SeqStep) : (s.goto st).session = s.session := rfl
@[simp] theorem State.goto_err (st : SeqStep) : (s.goto st).err = s.err := rfl
@[simp] theorem State.goto_chunks (st : SeqStep) : (s.goto st).chunks = s.chunks := rfl
@[simp] theorem State.goto_xfer (st : SeqStep) : (s.goto st).xfer = s.xfer := rfl
@[simp] theorem State.goto_txcalls (st : SeqStep) : (s.goto st).txcalls = s.txcalls := rfl
@[simp] theorem State.goto_op (st : SeqStep) : (s.goto st).op = s.op := rfl
@[simp] theorem State.goto_addr0 (st : SeqStep) : (s.goto st).addr0 = s.addr0 := rfl
@[simp] theorem State.goto_len0 (st : SeqStep) : (s.goto st).len0 = s.len0 := rfl
@[simp] theorem State.goto_pdelay (st : SeqStep) : (s.goto st).pdelay = s.pdelay := rfl
@[simp] theorem State.goto_curAddr (st : SeqStep) : (s.goto st).curAddr = s.curAddr := rfl
@[simp] theorem State.goto_remaining (st : SeqStep) : (s.goto st).remaining = s.remaining := rfl
@[simp] theorem State.goto_chunkLen (st : SeqStep) : (s.goto st).chunkLen = s.chunkLen := rfl
@[simp] theorem State.goto_widx (st : SeqStep) : (s.goto st).widx = s.widx := rfl
@[simp] theorem State.goto_t0 (st : SeqStep) : (s.goto st).t0 = s.t0 := rfl
@[simp] theorem State.goto_step (st : SeqStep) : (s.goto st).step = st := rfl
@[simp] theorem State.goto_failed (st : SeqStep) : (s.goto st).failed = s.failed := rfl
@[simp] theorem State.goto_cmode (st : SeqStep) : (s.goto st).cmode = s.cmode := rfl
@[simp] theorem State.goto_cexp (st : SeqStep) : (s.goto st).cexp = s.cexp := rfl
@[simp] theorem State.goto_cshape (st : SeqStep) : (s.goto st).cshape = s.cshape := rfl
@[simp] theorem State.goto_ctimeout (st : SeqStep) : (s.goto st).ctimeout = s.ctimeout := rfl
@[simp] theorem State.goto_cidx (st : SeqStep) : (s.goto st).cidx = s.cidx := rfl
@[simp] theorem State.goto_cneed (st : SeqStep) : (s.goto st).cneed = s.cneed := rfl
@[simp] theorem State.goto_cresult (st : SeqStep) : (s.goto st).cresult = s.cresult := rfl
@[simp] theorem State.goto_txbuf (st : SeqStep) : (s.goto st).txbuf = s.txbuf := rfl
@[simp] theorem State.goto_txlen (st : SeqStep) : (s.goto st).txlen = s.txlen := rfl
@[simp] theorem State.goto_rxbuf (st : SeqStep) : (s.goto st).rxbuf = s.rxbuf := rfl
@[simp] theorem State.goto_rxq (st : SeqStep) : (s.goto st).rxq = s.rxq := rfl
@[simp] theorem State.goto_portOpen (st : SeqStep) : (s.goto st).portOpen = s.portOpen := rfl
@[simp] theorem State.goto_ctlAsserted (st : SeqStep) :
    (s.goto st).ctlAsserted = s.ctlAsserted := rfl
@[simp] theorem State.goto_streamOpen (st : SeqStep) : (s.goto st).streamOpen = s.streamOpen := rfl
@[simp] theorem State.goto_now (st : SeqStep) : (s.goto st).now = s.now := rfl
@[simp] theorem State.goto_hist (st : SeqStep) : (s.goto st).hist = s.hist := rfl
@[simp] theorem State.goto_txwire (st : SeqStep) : (s.goto st).txwire = s.txwire := rfl
@[simp] theorem State.goto_sink (st : SeqStep) : (s.goto st).sink = s.sink := rfl
@[simp] theorem State.goto_waiting (st : SeqStep) : (s.goto st).waiting = s.waiting := rfl
@[simp] theorem State.goto_rdata (st : SeqStep) : (s.goto st).rdata = s.rdata := rfl
@[simp] theorem State.goto_sumOut (st : SeqStep) : (s.goto st).sumOut = s.sumOut := rfl
@[simp] theorem State.goto_cfg (st : SeqStep) : (s.goto st).cfg = s.cfg := rfl
@[simp] theorem State.goto_ans (st : SeqStep) : (s.goto st).ans = s.ans := rfl
@[simp] theorem State.goto_inputs (st : SeqStep) : (s.goto st).inputs = s.inputs := rfl
@[simp] theorem State.goto_draws (st : SeqStep) : (s.goto st).draws = s.draws := rfl

/-! ## `log` -/

@[simp] theorem State.log_reqOp (e : Event) : (s.log e).reqOp = s.reqOp := rfl
@[simp] theorem State.log_reqAddr (e : Event) : (s.log e).reqAddr = s.reqAddr := rfl
@[simp] theorem State.log_reqLen (e : Event) : (s.log e).reqLen = s.reqLen := rfl
@[simp] theorem State.log_pwrDelay (e : Event) : (s.log e).pwrDelay = s.pwrDelay := rfl
@[simp] theorem State.log_busy (e : Event) : (s.log e).busy = s.busy := rfl
@[simp] theorem State.log_done (e : Event) : (s.log e).done = s.done := rfl
@[simp] theorem State.log_ok (e : Event) : (s.log e).ok = s.ok := rfl
@[simp] theorem State.log_session (e : Event) : (s.log e).session = s.session := rfl
@[simp] theorem State.log_err (e : Event) : (s.log e).err = s.err := rfl
@[simp] theorem State.log_chunks (e : Event) : (s.log e).chunks = s.chunks := rfl
@[simp] theorem State.log_xfer (e : Event) : (s.log e).xfer = s.xfer := rfl
@[simp] theorem State.log_txcalls (e : Event) : (s.log e).txcalls = s.txcalls := rfl
@[simp] theorem State.log_op (e : Event) : (s.log e).op = s.op := rfl
@[simp] theorem State.log_addr0 (e : Event) : (s.log e).addr0 = s.addr0 := rfl
@[simp] theorem State.log_len0 (e : Event) : (s.log e).len0 = s.len0 := rfl
@[simp] theorem State.log_pdelay (e : Event) : (s.log e).pdelay = s.pdelay := rfl
@[simp] theorem State.log_curAddr (e : Event) : (s.log e).curAddr = s.curAddr := rfl
@[simp] theorem State.log_remaining (e : Event) : (s.log e).remaining = s.remaining := rfl
@[simp] theorem State.log_chunkLen (e : Event) : (s.log e).chunkLen = s.chunkLen := rfl
@[simp] theorem State.log_widx (e : Event) : (s.log e).widx = s.widx := rfl
@[simp] theorem State.log_t0 (e : Event) : (s.log e).t0 = s.t0 := rfl
@[simp] theorem State.log_step (e : Event) : (s.log e).step = s.step := rfl
@[simp] theorem State.log_failed (e : Event) : (s.log e).failed = s.failed := rfl
@[simp] theorem State.log_cmode (e : Event) : (s.log e).cmode = s.cmode := rfl
@[simp] theorem State.log_cexp (e : Event) : (s.log e).cexp = s.cexp := rfl
@[simp] theorem State.log_cshape (e : Event) : (s.log e).cshape = s.cshape := rfl
@[simp] theorem State.log_ctimeout (e : Event) : (s.log e).ctimeout = s.ctimeout := rfl
@[simp] theorem State.log_cidx (e : Event) : (s.log e).cidx = s.cidx := rfl
@[simp] theorem State.log_cneed (e : Event) : (s.log e).cneed = s.cneed := rfl
@[simp] theorem State.log_cresult (e : Event) : (s.log e).cresult = s.cresult := rfl
@[simp] theorem State.log_txbuf (e : Event) : (s.log e).txbuf = s.txbuf := rfl
@[simp] theorem State.log_txlen (e : Event) : (s.log e).txlen = s.txlen := rfl
@[simp] theorem State.log_rxbuf (e : Event) : (s.log e).rxbuf = s.rxbuf := rfl
@[simp] theorem State.log_rxq (e : Event) : (s.log e).rxq = s.rxq := rfl
@[simp] theorem State.log_portOpen (e : Event) : (s.log e).portOpen = s.portOpen := rfl
@[simp] theorem State.log_ctlAsserted (e : Event) : (s.log e).ctlAsserted = s.ctlAsserted := rfl
@[simp] theorem State.log_streamOpen (e : Event) : (s.log e).streamOpen = s.streamOpen := rfl
@[simp] theorem State.log_now (e : Event) : (s.log e).now = s.now := rfl
@[simp] theorem State.log_hist (e : Event) : (s.log e).hist = s.hist ++ [e] := rfl
@[simp] theorem State.log_txwire (e : Event) : (s.log e).txwire = s.txwire := rfl
@[simp] theorem State.log_sink (e : Event) : (s.log e).sink = s.sink := rfl
@[simp] theorem State.log_waiting (e : Event) : (s.log e).waiting = s.waiting := rfl
@[simp] theorem State.log_rdata (e : Event) : (s.log e).rdata = s.rdata := rfl
@[simp] theorem State.log_sumOut (e : Event) : (s.log e).sumOut = s.sumOut := rfl
@[simp] theorem State.log_cfg (e : Event) : (s.log e).cfg = s.cfg := rfl
@[simp] theorem State.log_ans (e : Event) : (s.log e).ans = s.ans := rfl
@[simp] theorem State.log_inputs (e : Event) : (s.log e).inputs = s.inputs := rfl
@[simp] theorem State.log_draws (e : Event) : (s.log e).draws = s.draws := rfl

/-! ## `receive` -/

@[simp] theorem State.receive_reqOp (bs : List Byte) : (s.receive bs).reqOp = s.reqOp := rfl
@[simp] theorem State.receive_reqAddr (bs : List Byte) : (s.receive bs).reqAddr = s.reqAddr := rfl
@[simp] theorem State.receive_reqLen (bs : List Byte) : (s.receive bs).reqLen = s.reqLen := rfl
@[simp] theorem State.receive_pwrDelay (bs : List Byte) :
    (s.receive bs).pwrDelay = s.pwrDelay := rfl
@[simp] theorem State.receive_busy (bs : List Byte) : (s.receive bs).busy = s.busy := rfl
@[simp] theorem State.receive_done (bs : List Byte) : (s.receive bs).done = s.done := rfl
@[simp] theorem State.receive_ok (bs : List Byte) : (s.receive bs).ok = s.ok := rfl
@[simp] theorem State.receive_session (bs : List Byte) : (s.receive bs).session = s.session := rfl
@[simp] theorem State.receive_err (bs : List Byte) : (s.receive bs).err = s.err := rfl
@[simp] theorem State.receive_chunks (bs : List Byte) : (s.receive bs).chunks = s.chunks := rfl
@[simp] theorem State.receive_xfer (bs : List Byte) : (s.receive bs).xfer = s.xfer := rfl
@[simp] theorem State.receive_txcalls (bs : List Byte) : (s.receive bs).txcalls = s.txcalls := rfl
@[simp] theorem State.receive_op (bs : List Byte) : (s.receive bs).op = s.op := rfl
@[simp] theorem State.receive_addr0 (bs : List Byte) : (s.receive bs).addr0 = s.addr0 := rfl
@[simp] theorem State.receive_len0 (bs : List Byte) : (s.receive bs).len0 = s.len0 := rfl
@[simp] theorem State.receive_pdelay (bs : List Byte) : (s.receive bs).pdelay = s.pdelay := rfl
@[simp] theorem State.receive_curAddr (bs : List Byte) : (s.receive bs).curAddr = s.curAddr := rfl
@[simp] theorem State.receive_remaining (bs : List Byte) :
    (s.receive bs).remaining = s.remaining := rfl
@[simp] theorem State.receive_chunkLen (bs : List Byte) :
    (s.receive bs).chunkLen = s.chunkLen := rfl
@[simp] theorem State.receive_widx (bs : List Byte) : (s.receive bs).widx = s.widx := rfl
@[simp] theorem State.receive_t0 (bs : List Byte) : (s.receive bs).t0 = s.t0 := rfl
@[simp] theorem State.receive_step (bs : List Byte) : (s.receive bs).step = s.step := rfl
@[simp] theorem State.receive_failed (bs : List Byte) : (s.receive bs).failed = s.failed := rfl
@[simp] theorem State.receive_cmode (bs : List Byte) : (s.receive bs).cmode = s.cmode := rfl
@[simp] theorem State.receive_cexp (bs : List Byte) : (s.receive bs).cexp = s.cexp := rfl
@[simp] theorem State.receive_cshape (bs : List Byte) : (s.receive bs).cshape = s.cshape := rfl
@[simp] theorem State.receive_ctimeout (bs : List Byte) :
    (s.receive bs).ctimeout = s.ctimeout := rfl
@[simp] theorem State.receive_cidx (bs : List Byte) : (s.receive bs).cidx = s.cidx := rfl
@[simp] theorem State.receive_cneed (bs : List Byte) : (s.receive bs).cneed = s.cneed := rfl
@[simp] theorem State.receive_cresult (bs : List Byte) : (s.receive bs).cresult = s.cresult := rfl
@[simp] theorem State.receive_txbuf (bs : List Byte) : (s.receive bs).txbuf = s.txbuf := rfl
@[simp] theorem State.receive_txlen (bs : List Byte) : (s.receive bs).txlen = s.txlen := rfl
@[simp] theorem State.receive_rxbuf (bs : List Byte) : (s.receive bs).rxbuf = s.rxbuf := rfl
@[simp] theorem State.receive_rxq (bs : List Byte) : (s.receive bs).rxq = s.rxq ++ bs := rfl
@[simp] theorem State.receive_portOpen (bs : List Byte) :
    (s.receive bs).portOpen = s.portOpen := rfl
@[simp] theorem State.receive_ctlAsserted (bs : List Byte) :
    (s.receive bs).ctlAsserted = s.ctlAsserted := rfl
@[simp] theorem State.receive_streamOpen (bs : List Byte) :
    (s.receive bs).streamOpen = s.streamOpen := rfl
@[simp] theorem State.receive_now (bs : List Byte) : (s.receive bs).now = s.now := rfl
@[simp] theorem State.receive_hist (bs : List Byte) : (s.receive bs).hist = s.hist := rfl
@[simp] theorem State.receive_txwire (bs : List Byte) : (s.receive bs).txwire = s.txwire := rfl
@[simp] theorem State.receive_sink (bs : List Byte) : (s.receive bs).sink = s.sink := rfl
@[simp] theorem State.receive_waiting (bs : List Byte) : (s.receive bs).waiting = s.waiting := rfl
@[simp] theorem State.receive_rdata (bs : List Byte) : (s.receive bs).rdata = s.rdata := rfl
@[simp] theorem State.receive_sumOut (bs : List Byte) : (s.receive bs).sumOut = s.sumOut := rfl
@[simp] theorem State.receive_cfg (bs : List Byte) : (s.receive bs).cfg = s.cfg := rfl
@[simp] theorem State.receive_ans (bs : List Byte) : (s.receive bs).ans = s.ans := rfl
@[simp] theorem State.receive_inputs (bs : List Byte) : (s.receive bs).inputs = s.inputs := rfl
@[simp] theorem State.receive_draws (bs : List Byte) : (s.receive bs).draws = s.draws := rfl

/-! ## `raise` -/

@[simp] theorem State.raise_reqOp (st : SeqStep) (c : Cause) : (s.raise st c).reqOp = s.reqOp := rfl
@[simp] theorem State.raise_reqAddr (st : SeqStep) (c : Cause) :
    (s.raise st c).reqAddr = s.reqAddr := rfl
@[simp] theorem State.raise_reqLen (st : SeqStep) (c : Cause) :
    (s.raise st c).reqLen = s.reqLen := rfl
@[simp] theorem State.raise_pwrDelay (st : SeqStep) (c : Cause) :
    (s.raise st c).pwrDelay = s.pwrDelay := rfl
@[simp] theorem State.raise_busy (st : SeqStep) (c : Cause) : (s.raise st c).busy = s.busy := rfl
@[simp] theorem State.raise_done (st : SeqStep) (c : Cause) : (s.raise st c).done = s.done := rfl
@[simp] theorem State.raise_ok (st : SeqStep) (c : Cause) : (s.raise st c).ok = s.ok := rfl
@[simp] theorem State.raise_session (st : SeqStep) (c : Cause) :
    (s.raise st c).session = s.session := rfl
@[simp] theorem State.raise_err (st : SeqStep) (c : Cause) :
    (s.raise st c).err = if s.failed then s.err else errWord c (stageOf s.op st) := rfl
@[simp] theorem State.raise_chunks (st : SeqStep) (c : Cause) :
    (s.raise st c).chunks = s.chunks := rfl
@[simp] theorem State.raise_xfer (st : SeqStep) (c : Cause) : (s.raise st c).xfer = s.xfer := rfl
@[simp] theorem State.raise_txcalls (st : SeqStep) (c : Cause) :
    (s.raise st c).txcalls = s.txcalls := rfl
@[simp] theorem State.raise_op (st : SeqStep) (c : Cause) : (s.raise st c).op = s.op := rfl
@[simp] theorem State.raise_addr0 (st : SeqStep) (c : Cause) : (s.raise st c).addr0 = s.addr0 := rfl
@[simp] theorem State.raise_len0 (st : SeqStep) (c : Cause) : (s.raise st c).len0 = s.len0 := rfl
@[simp] theorem State.raise_pdelay (st : SeqStep) (c : Cause) :
    (s.raise st c).pdelay = s.pdelay := rfl
@[simp] theorem State.raise_curAddr (st : SeqStep) (c : Cause) :
    (s.raise st c).curAddr = s.curAddr := rfl
@[simp] theorem State.raise_remaining (st : SeqStep) (c : Cause) :
    (s.raise st c).remaining = s.remaining := rfl
@[simp] theorem State.raise_chunkLen (st : SeqStep) (c : Cause) :
    (s.raise st c).chunkLen = s.chunkLen := rfl
@[simp] theorem State.raise_widx (st : SeqStep) (c : Cause) : (s.raise st c).widx = s.widx := rfl
@[simp] theorem State.raise_t0 (st : SeqStep) (c : Cause) : (s.raise st c).t0 = s.t0 := rfl
@[simp] theorem State.raise_step (st : SeqStep) (c : Cause) :
    (s.raise st c).step = .td .close := rfl
@[simp] theorem State.raise_failed (st : SeqStep) (c : Cause) : (s.raise st c).failed = true := rfl
@[simp] theorem State.raise_cmode (st : SeqStep) (c : Cause) : (s.raise st c).cmode = .idle := rfl
@[simp] theorem State.raise_cexp (st : SeqStep) (c : Cause) : (s.raise st c).cexp = s.cexp := rfl
@[simp] theorem State.raise_cshape (st : SeqStep) (c : Cause) :
    (s.raise st c).cshape = s.cshape := rfl
@[simp] theorem State.raise_ctimeout (st : SeqStep) (c : Cause) :
    (s.raise st c).ctimeout = s.ctimeout := rfl
@[simp] theorem State.raise_cidx (st : SeqStep) (c : Cause) : (s.raise st c).cidx = s.cidx := rfl
@[simp] theorem State.raise_cneed (st : SeqStep) (c : Cause) : (s.raise st c).cneed = s.cneed := rfl
@[simp] theorem State.raise_cresult (st : SeqStep) (c : Cause) :
    (s.raise st c).cresult = s.cresult := rfl
@[simp] theorem State.raise_txbuf (st : SeqStep) (c : Cause) : (s.raise st c).txbuf = s.txbuf := rfl
@[simp] theorem State.raise_txlen (st : SeqStep) (c : Cause) : (s.raise st c).txlen = s.txlen := rfl
@[simp] theorem State.raise_rxbuf (st : SeqStep) (c : Cause) : (s.raise st c).rxbuf = s.rxbuf := rfl
@[simp] theorem State.raise_rxq (st : SeqStep) (c : Cause) : (s.raise st c).rxq = s.rxq := rfl
@[simp] theorem State.raise_portOpen (st : SeqStep) (c : Cause) :
    (s.raise st c).portOpen = s.portOpen := rfl
@[simp] theorem State.raise_ctlAsserted (st : SeqStep) (c : Cause) :
    (s.raise st c).ctlAsserted = s.ctlAsserted := rfl
@[simp] theorem State.raise_streamOpen (st : SeqStep) (c : Cause) :
    (s.raise st c).streamOpen = s.streamOpen := rfl
@[simp] theorem State.raise_now (st : SeqStep) (c : Cause) : (s.raise st c).now = s.now := rfl
@[simp] theorem State.raise_hist (st : SeqStep) (c : Cause) : (s.raise st c).hist = s.hist := rfl
@[simp] theorem State.raise_txwire (st : SeqStep) (c : Cause) :
    (s.raise st c).txwire = s.txwire := rfl
@[simp] theorem State.raise_sink (st : SeqStep) (c : Cause) : (s.raise st c).sink = s.sink := rfl
@[simp] theorem State.raise_waiting (st : SeqStep) (c : Cause) :
    (s.raise st c).waiting = s.waiting := rfl
@[simp] theorem State.raise_rdata (st : SeqStep) (c : Cause) : (s.raise st c).rdata = s.rdata := rfl
@[simp] theorem State.raise_sumOut (st : SeqStep) (c : Cause) :
    (s.raise st c).sumOut = s.sumOut := rfl
@[simp] theorem State.raise_cfg (st : SeqStep) (c : Cause) : (s.raise st c).cfg = s.cfg := rfl
@[simp] theorem State.raise_ans (st : SeqStep) (c : Cause) : (s.raise st c).ans = s.ans := rfl
@[simp] theorem State.raise_inputs (st : SeqStep) (c : Cause) :
    (s.raise st c).inputs = s.inputs := rfl
@[simp] theorem State.raise_draws (st : SeqStep) (c : Cause) : (s.raise st c).draws = s.draws := rfl

/-! ## `endSession` -/

@[simp] theorem State.endSession_reqOp : s.endSession.reqOp = s.reqOp := rfl
@[simp] theorem State.endSession_reqAddr : s.endSession.reqAddr = s.reqAddr := rfl
@[simp] theorem State.endSession_reqLen : s.endSession.reqLen = s.reqLen := rfl
@[simp] theorem State.endSession_pwrDelay : s.endSession.pwrDelay = s.pwrDelay := rfl
@[simp] theorem State.endSession_busy : s.endSession.busy = false := rfl
@[simp] theorem State.endSession_done : s.endSession.done = true := rfl
@[simp] theorem State.endSession_ok : s.endSession.ok = !s.failed := rfl
@[simp] theorem State.endSession_session : s.endSession.session = .closed := rfl
@[simp] theorem State.endSession_err : s.endSession.err = s.err := rfl
@[simp] theorem State.endSession_chunks : s.endSession.chunks = s.chunks := rfl
@[simp] theorem State.endSession_xfer : s.endSession.xfer = s.xfer := rfl
@[simp] theorem State.endSession_txcalls : s.endSession.txcalls = s.txcalls := rfl
@[simp] theorem State.endSession_op : s.endSession.op = s.op := rfl
@[simp] theorem State.endSession_addr0 : s.endSession.addr0 = s.addr0 := rfl
@[simp] theorem State.endSession_len0 : s.endSession.len0 = s.len0 := rfl
@[simp] theorem State.endSession_pdelay : s.endSession.pdelay = s.pdelay := rfl
@[simp] theorem State.endSession_curAddr : s.endSession.curAddr = s.curAddr := rfl
@[simp] theorem State.endSession_remaining : s.endSession.remaining = s.remaining := rfl
@[simp] theorem State.endSession_chunkLen : s.endSession.chunkLen = s.chunkLen := rfl
@[simp] theorem State.endSession_widx : s.endSession.widx = s.widx := rfl
@[simp] theorem State.endSession_t0 : s.endSession.t0 = s.t0 := rfl
@[simp] theorem State.endSession_step : s.endSession.step = .idle := rfl
@[simp] theorem State.endSession_failed : s.endSession.failed = s.failed := rfl
@[simp] theorem State.endSession_cmode : s.endSession.cmode = s.cmode := rfl
@[simp] theorem State.endSession_cexp : s.endSession.cexp = s.cexp := rfl
@[simp] theorem State.endSession_cshape : s.endSession.cshape = s.cshape := rfl
@[simp] theorem State.endSession_ctimeout : s.endSession.ctimeout = s.ctimeout := rfl
@[simp] theorem State.endSession_cidx : s.endSession.cidx = s.cidx := rfl
@[simp] theorem State.endSession_cneed : s.endSession.cneed = s.cneed := rfl
@[simp] theorem State.endSession_cresult : s.endSession.cresult = s.cresult := rfl
@[simp] theorem State.endSession_txbuf : s.endSession.txbuf = s.txbuf := rfl
@[simp] theorem State.endSession_txlen : s.endSession.txlen = s.txlen := rfl
@[simp] theorem State.endSession_rxbuf : s.endSession.rxbuf = s.rxbuf := rfl
@[simp] theorem State.endSession_rxq : s.endSession.rxq = s.rxq := rfl
@[simp] theorem State.endSession_portOpen : s.endSession.portOpen = s.portOpen := rfl
@[simp] theorem State.endSession_ctlAsserted : s.endSession.ctlAsserted = s.ctlAsserted := rfl
@[simp] theorem State.endSession_streamOpen : s.endSession.streamOpen = s.streamOpen := rfl
@[simp] theorem State.endSession_now : s.endSession.now = s.now := rfl
@[simp] theorem State.endSession_hist : s.endSession.hist = s.hist := rfl
@[simp] theorem State.endSession_txwire : s.endSession.txwire = s.txwire := rfl
@[simp] theorem State.endSession_sink : s.endSession.sink = s.sink := rfl
@[simp] theorem State.endSession_waiting : s.endSession.waiting = s.waiting := rfl
@[simp] theorem State.endSession_rdata : s.endSession.rdata = s.rdata := rfl
@[simp] theorem State.endSession_sumOut : s.endSession.sumOut = s.sumOut := rfl
@[simp] theorem State.endSession_cfg : s.endSession.cfg = s.cfg := rfl
@[simp] theorem State.endSession_ans : s.endSession.ans = s.ans := rfl
@[simp] theorem State.endSession_inputs : s.endSession.inputs = s.inputs := rfl
@[simp] theorem State.endSession_draws : s.endSession.draws = s.draws := rfl

/-! ## `enterAwait` -/

@[simp] theorem State.enterAwait_reqOp (m : CMode) (budget : Nat) :
    (s.enterAwait m budget).reqOp = s.reqOp := rfl
@[simp] theorem State.enterAwait_reqAddr (m : CMode) (budget : Nat) :
    (s.enterAwait m budget).reqAddr = s.reqAddr := rfl
@[simp] theorem State.enterAwait_reqLen (m : CMode) (budget : Nat) :
    (s.enterAwait m budget).reqLen = s.reqLen := rfl
@[simp] theorem State.enterAwait_pwrDelay (m : CMode) (budget : Nat) :
    (s.enterAwait m budget).pwrDelay = s.pwrDelay := rfl
@[simp] theorem State.enterAwait_busy (m : CMode) (budget : Nat) :
    (s.enterAwait m budget).busy = s.busy := rfl
@[simp] theorem State.enterAwait_done (m : CMode) (budget : Nat) :
    (s.enterAwait m budget).done = s.done := rfl
@[simp] theorem State.enterAwait_ok (m : CMode) (budget : Nat) :
    (s.enterAwait m budget).ok = s.ok := rfl
@[simp] theorem State.enterAwait_session (m : CMode) (budget : Nat) :
    (s.enterAwait m budget).session = s.session := rfl
@[simp] theorem State.enterAwait_err (m : CMode) (budget : Nat) :
    (s.enterAwait m budget).err = s.err := rfl
@[simp] theorem State.enterAwait_chunks (m : CMode) (budget : Nat) :
    (s.enterAwait m budget).chunks = s.chunks := rfl
@[simp] theorem State.enterAwait_xfer (m : CMode) (budget : Nat) :
    (s.enterAwait m budget).xfer = s.xfer := rfl
@[simp] theorem State.enterAwait_txcalls (m : CMode) (budget : Nat) :
    (s.enterAwait m budget).txcalls = s.txcalls := rfl
@[simp] theorem State.enterAwait_op (m : CMode) (budget : Nat) :
    (s.enterAwait m budget).op = s.op := rfl
@[simp] theorem State.enterAwait_addr0 (m : CMode) (budget : Nat) :
    (s.enterAwait m budget).addr0 = s.addr0 := rfl
@[simp] theorem State.enterAwait_len0 (m : CMode) (budget : Nat) :
    (s.enterAwait m budget).len0 = s.len0 := rfl
@[simp] theorem State.enterAwait_pdelay (m : CMode) (budget : Nat) :
    (s.enterAwait m budget).pdelay = s.pdelay := rfl
@[simp] theorem State.enterAwait_curAddr (m : CMode) (budget : Nat) :
    (s.enterAwait m budget).curAddr = s.curAddr := rfl
@[simp] theorem State.enterAwait_remaining (m : CMode) (budget : Nat) :
    (s.enterAwait m budget).remaining = s.remaining := rfl
@[simp] theorem State.enterAwait_chunkLen (m : CMode) (budget : Nat) :
    (s.enterAwait m budget).chunkLen = s.chunkLen := rfl
@[simp] theorem State.enterAwait_widx (m : CMode) (budget : Nat) :
    (s.enterAwait m budget).widx = s.widx := rfl
@[simp] theorem State.enterAwait_t0 (m : CMode) (budget : Nat) :
    (s.enterAwait m budget).t0 = s.now := rfl
@[simp] theorem State.enterAwait_step (m : CMode) (budget : Nat) :
    (s.enterAwait m budget).step = s.step := rfl
@[simp] theorem State.enterAwait_failed (m : CMode) (budget : Nat) :
    (s.enterAwait m budget).failed = s.failed := rfl
@[simp] theorem State.enterAwait_cmode (m : CMode) (budget : Nat) :
    (s.enterAwait m budget).cmode = m := rfl
@[simp] theorem State.enterAwait_cexp (m : CMode) (budget : Nat) :
    (s.enterAwait m budget).cexp = s.cexp := rfl
@[simp] theorem State.enterAwait_cshape (m : CMode) (budget : Nat) :
    (s.enterAwait m budget).cshape = s.cshape := rfl
@[simp] theorem State.enterAwait_ctimeout (m : CMode) (budget : Nat) :
    (s.enterAwait m budget).ctimeout = budget := rfl
@[simp] theorem State.enterAwait_cidx (m : CMode) (budget : Nat) :
    (s.enterAwait m budget).cidx = 0 := rfl
@[simp] theorem State.enterAwait_cneed (m : CMode) (budget : Nat) :
    (s.enterAwait m budget).cneed = m.need s.cshape := rfl
@[simp] theorem State.enterAwait_cresult (m : CMode) (budget : Nat) :
    (s.enterAwait m budget).cresult = .none := rfl
@[simp] theorem State.enterAwait_txbuf (m : CMode) (budget : Nat) :
    (s.enterAwait m budget).txbuf = s.txbuf := rfl
@[simp] theorem State.enterAwait_txlen (m : CMode) (budget : Nat) :
    (s.enterAwait m budget).txlen = s.txlen := rfl
@[simp] theorem State.enterAwait_rxbuf (m : CMode) (budget : Nat) :
    (s.enterAwait m budget).rxbuf = s.rxbuf := rfl
@[simp] theorem State.enterAwait_rxq (m : CMode) (budget : Nat) :
    (s.enterAwait m budget).rxq = s.rxq := rfl
@[simp] theorem State.enterAwait_portOpen (m : CMode) (budget : Nat) :
    (s.enterAwait m budget).portOpen = s.portOpen := rfl
@[simp] theorem State.enterAwait_ctlAsserted (m : CMode) (budget : Nat) :
    (s.enterAwait m budget).ctlAsserted = s.ctlAsserted := rfl
@[simp] theorem State.enterAwait_streamOpen (m : CMode) (budget : Nat) :
    (s.enterAwait m budget).streamOpen = s.streamOpen := rfl
@[simp] theorem State.enterAwait_now (m : CMode) (budget : Nat) :
    (s.enterAwait m budget).now = s.now := rfl
@[simp] theorem State.enterAwait_hist (m : CMode) (budget : Nat) :
    (s.enterAwait m budget).hist = s.hist := rfl
@[simp] theorem State.enterAwait_txwire (m : CMode) (budget : Nat) :
    (s.enterAwait m budget).txwire = s.txwire := rfl
@[simp] theorem State.enterAwait_sink (m : CMode) (budget : Nat) :
    (s.enterAwait m budget).sink = s.sink := rfl
@[simp] theorem State.enterAwait_waiting (m : CMode) (budget : Nat) :
    (s.enterAwait m budget).waiting = s.waiting := rfl
@[simp] theorem State.enterAwait_rdata (m : CMode) (budget : Nat) :
    (s.enterAwait m budget).rdata = s.rdata := rfl
@[simp] theorem State.enterAwait_sumOut (m : CMode) (budget : Nat) :
    (s.enterAwait m budget).sumOut = s.sumOut := rfl
@[simp] theorem State.enterAwait_cfg (m : CMode) (budget : Nat) :
    (s.enterAwait m budget).cfg = s.cfg := rfl
@[simp] theorem State.enterAwait_ans (m : CMode) (budget : Nat) :
    (s.enterAwait m budget).ans = s.ans := rfl
@[simp] theorem State.enterAwait_inputs (m : CMode) (budget : Nat) :
    (s.enterAwait m budget).inputs = s.inputs := rfl
@[simp] theorem State.enterAwait_draws (m : CMode) (budget : Nat) :
    (s.enterAwait m budget).draws = s.draws := rfl

/-! ## `commitChunk` -/

@[simp] theorem State.commitChunk_reqOp : s.commitChunk.reqOp = s.reqOp := rfl
@[simp] theorem State.commitChunk_reqAddr : s.commitChunk.reqAddr = s.reqAddr := rfl
@[simp] theorem State.commitChunk_reqLen : s.commitChunk.reqLen = s.reqLen := rfl
@[simp] theorem State.commitChunk_pwrDelay : s.commitChunk.pwrDelay = s.pwrDelay := rfl
@[simp] theorem State.commitChunk_busy : s.commitChunk.busy = s.busy := rfl
@[simp] theorem State.commitChunk_done : s.commitChunk.done = s.done := rfl
@[simp] theorem State.commitChunk_ok : s.commitChunk.ok = s.ok := rfl
@[simp] theorem State.commitChunk_session : s.commitChunk.session = s.session := rfl
@[simp] theorem State.commitChunk_err : s.commitChunk.err = s.err := rfl
@[simp] theorem State.commitChunk_chunks : s.commitChunk.chunks = s.chunks + 1 := rfl
@[simp] theorem State.commitChunk_xfer : s.commitChunk.xfer = s.xfer + s.chunkLen.setWidth 32 := rfl
@[simp] theorem State.commitChunk_txcalls : s.commitChunk.txcalls = s.txcalls := rfl
@[simp] theorem State.commitChunk_op : s.commitChunk.op = s.op := rfl
@[simp] theorem State.commitChunk_addr0 : s.commitChunk.addr0 = s.addr0 := rfl
@[simp] theorem State.commitChunk_len0 : s.commitChunk.len0 = s.len0 := rfl
@[simp] theorem State.commitChunk_pdelay : s.commitChunk.pdelay = s.pdelay := rfl
@[simp] theorem State.commitChunk_curAddr :
    s.commitChunk.curAddr = s.curAddr + s.chunkLen.setWidth 32 := rfl
@[simp] theorem State.commitChunk_remaining :
    s.commitChunk.remaining = s.remaining - s.chunkLen.setWidth 32 := rfl
@[simp] theorem State.commitChunk_chunkLen : s.commitChunk.chunkLen = s.chunkLen := rfl
@[simp] theorem State.commitChunk_widx : s.commitChunk.widx = s.widx := rfl
@[simp] theorem State.commitChunk_t0 : s.commitChunk.t0 = s.t0 := rfl
@[simp] theorem State.commitChunk_step : s.commitChunk.step = s.step := rfl
@[simp] theorem State.commitChunk_failed : s.commitChunk.failed = s.failed := rfl
@[simp] theorem State.commitChunk_cmode : s.commitChunk.cmode = s.cmode := rfl
@[simp] theorem State.commitChunk_cexp : s.commitChunk.cexp = s.cexp := rfl
@[simp] theorem State.commitChunk_cshape : s.commitChunk.cshape = s.cshape := rfl
@[simp] theorem State.commitChunk_ctimeout : s.commitChunk.ctimeout = s.ctimeout := rfl
@[simp] theorem State.commitChunk_cidx : s.commitChunk.cidx = s.cidx := rfl
@[simp] theorem State.commitChunk_cneed : s.commitChunk.cneed = s.cneed := rfl
@[simp] theorem State.commitChunk_cresult : s.commitChunk.cresult = s.cresult := rfl
@[simp] theorem State.commitChunk_txbuf : s.commitChunk.txbuf = s.txbuf := rfl
@[simp] theorem State.commitChunk_txlen : s.commitChunk.txlen = s.txlen := rfl
@[simp] theorem State.commitChunk_rxbuf : s.commitChunk.rxbuf = s.rxbuf := rfl
@[simp] theorem State.commitChunk_rxq : s.commitChunk.rxq = s.rxq := rfl
@[simp] theorem State.commitChunk_portOpen : s.commitChunk.portOpen = s.portOpen := rfl
@[simp] theorem State.commitChunk_ctlAsserted : s.commitChunk.ctlAsserted = s.ctlAsserted := rfl
@[simp] theorem State.commitChunk_streamOpen : s.commitChunk.streamOpen = s.streamOpen := rfl
@[simp] theorem State.commitChunk_now : s.commitChunk.now = s.now := rfl
@[simp] theorem State.commitChunk_hist : s.commitChunk.hist = s.hist := rfl
@[simp] theorem State.commitChunk_txwire : s.commitChunk.txwire = s.txwire := rfl
@[simp] theorem State.commitChunk_sink : s.commitChunk.sink = s.sink := rfl
@[simp] theorem State.commitChunk_waiting : s.commitChunk.waiting = s.waiting := rfl
@[simp] theorem State.commitChunk_rdata : s.commitChunk.rdata = s.rdata := rfl
@[simp] theorem State.commitChunk_sumOut : s.commitChunk.sumOut = s.sumOut := rfl
@[simp] theorem State.commitChunk_cfg : s.commitChunk.cfg = s.cfg := rfl
@[simp] theorem State.commitChunk_ans : s.commitChunk.ans = s.ans := rfl
@[simp] theorem State.commitChunk_inputs : s.commitChunk.inputs = s.inputs := rfl
@[simp] theorem State.commitChunk_draws : s.commitChunk.draws = s.draws := rfl

end Sys2Proof.Machine
end

