-- ==== Sys2Proof/Laws/Ops.lean ====
section
/-!
SUPPORT. What each shared operation can do, said once.
-/

namespace Sys2Proof.Machine

/-! ## Actions -/

@[simp] theorem Act.andThen_ok (s : State) (k : State → Act) : (Act.ok s).andThen k = k s := rfl
@[simp] theorem Act.andThen_hold (s : State) (k : State → Act) :
    (Act.hold s).andThen k = .hold s := rfl
@[simp] theorem Act.andThen_fail (c : Cause) (s : State) (k : State → Act) :
    (Act.fail c s).andThen k = .fail c s := rfl
@[simp] theorem Act.andThen_refuse (r : Refusal) (k : State → Act) :
    (Act.refuse r).andThen k = .refuse r := rfl
@[simp] theorem Act.andThen_stop (f : Fault) (k : State → Act) :
    (Act.stop f).andThen k = .stop f := rfl

@[simp] theorem Act.settle_ok (st : SeqStep) (f : State → State) (s : State) :
    (Act.ok s).settle st f = .next (f s) := rfl
@[simp] theorem Act.settle_hold (st : SeqStep) (f : State → State) (s : State) :
    (Act.hold s).settle st f = .next s := rfl
@[simp] theorem Act.settle_fail (st : SeqStep) (f : State → State) (c : Cause) (s : State) :
    (Act.fail c s).settle st f = .next (s.raise st c) := rfl
@[simp] theorem Act.settle_refuse (st : SeqStep) (f : State → State) (r : Refusal) :
    (Act.refuse r).settle st f = .refused r := rfl
@[simp] theorem Act.settle_stop (st : SeqStep) (f : State → State) (r : Fault) :
    (Act.stop r).settle st f = .fault r := rfl

/-- An action that settles in a next state completed, held, or took a failure. -/
theorem Act.settle_next {st : SeqStep} {f : State → State} {a : Act} {t : State}
    (h : a.settle st f = .next t) :
    (∃ s, a = .ok s ∧ t = f s) ∨ (∃ s, a = .hold s ∧ t = s) ∨
      ∃ c s, a = .fail c s ∧ t = s.raise st c := by
  cases a with
  | ok s => exact .inl ⟨s, rfl, by simpa using h.symm⟩
  | hold s => exact .inr (.inl ⟨s, rfl, by simpa using h.symm⟩)
  | fail c s => exact .inr (.inr ⟨c, s, rfl, by simpa using h.symm⟩)
  | refuse r => simp at h
  | stop r => simp at h

/-- An action followed by another completes only when both complete. -/
theorem Act.andThen_eq_ok {a : Act} {k : State → Act} {t : State} (h : a.andThen k = .ok t) :
    ∃ s, a = .ok s ∧ k s = .ok t := by
  cases a <;> simp_all [Act.andThen]

/-! ## Buffers and builders -/

theorem storeTx_eq {a : Nat} {bs : List Byte} (s : State) (h : a + bs.length ≤ Config.bufLen) :
    storeTx a bs s = .ok { s with txbuf := s.txbuf.writeBytes a bs } := if_pos h

theorem stampTx_eq {n : Nat} (s : State) (h : n < Config.bufLen) :
    stampTx n s = .ok { s with
      txbuf := Memory.write n (Codec.sum8 (s.txbuf.readBytes 0 n)) s.txbuf
      txlen := n + 1 } := if_pos h

@[simp] theorem length_header (m x : Byte) (a : Word) (n : Half) :
    (Codec.header m x a n).length = Config.hdrLen := rfl

@[simp] theorem length_readBody (c : Config.Params) (a : Word) (n : Half) :
    (Codec.readBody c a n).length = Config.hdrLen := rfl

@[simp] theorem length_writeHeader (c : Config.Params) (a : Word) :
    (Codec.writeHeader c a).length = Config.hdrLen := rfl

@[simp] theorem length_eraseAllBody (c : Config.Params) :
    (Codec.eraseAllBody c).length = Config.hdrLen := rfl

@[simp] theorem length_eraseSectorBody (c : Config.Params) (t : Word) :
    (Codec.eraseSectorBody c t).length = Config.hdrLen := rfl

@[simp] theorem length_stamped (body : List Byte) :
    (Codec.stamped body).length = body.length + 1 := by simp [Codec.stamped]

/-- What a builder leaves in `txbuf`: the body and its trailer from index 0, and every other byte as it
was. -/
structure Built (body : List Byte) (s t : State) : Prop where
  eq : t = { s with txbuf := t.txbuf, txlen := body.length + 1 }
  frame : t.txFrame = Codec.stamped body
  wf : s.txbuf.wf = true → t.txbuf.wf = true
  rest : ∀ x, body.length < x → t.txbuf.read x = s.txbuf.read x

/-- Stamping a buffer that holds a body from index 0 completes the frame. -/
theorem stampTx_built {body : List Byte} {s s1 : State} (hb : body.length < Config.bufLen)
    (he : s1 = { s with txbuf := s1.txbuf }) (hr : s1.txbuf.readBytes 0 body.length = body)
    (hw : s.txbuf.wf = true → s1.txbuf.wf = true)
    (ho : ∀ x, body.length < x → s1.txbuf.read x = s.txbuf.read x) :
    ∃ t, stampTx body.length s1 = .ok t ∧ Built body s t := by
  refine ⟨_, stampTx_eq s1 hb, ?_, ?_, ?_, ?_⟩
  · rw [he]
  · simp only [State.txFrame, Memory.readBytes_add, Codec.stamped, hr,
      Memory.readBytes_write_out s1.txbuf (show body.length < 0 ∨ 0 + body.length ≤ body.length by omega)]
    simp [Memory.readBytes]
  · exact fun h => Memory.wf_write (hw h) hb
  · intro x hx
    rw [Memory.read_write_other (by omega), ho x hx]

/-- A builder without payload cannot fail (R162, R164, R165). -/
theorem buildTx_built {body : List Byte} (s : State) (hb : body.length < Config.bufLen) :
    ∃ t, buildTx body s = .ok t ∧ Built body s t := by
  unfold buildTx
  rw [storeTx_eq s (by omega), Act.andThen_ok]
  exact stampTx_built hb rfl (Memory.readBytes_writeBytes body 0 _)
    (fun h => Memory.wf_writeBytes h (by omega))
    fun x hx => Memory.read_writeBytes_out _ (by omega)

/-- BUILD_WRITE cannot fail on a payload of at most 0x200 bytes (R163). -/
theorem buildWrite_built {a : Word} {d : List Byte} (s : State)
    (hd : d.length ≤ Config.chunkMax) :
    ∃ t, buildWrite a d s = .ok t ∧ Built (Codec.writeHeader s.cfg a ++ d) s t := by
  have hlen : (Codec.writeHeader s.cfg a ++ d).length = Config.hdrLen + d.length := by simp
  unfold buildWrite
  rw [storeTx_eq s (by simp), Act.andThen_ok, storeTx_eq _ (by simp at hd ⊢; omega), Act.andThen_ok,
    ← hlen]
  refine stampTx_built (by rw [hlen]; simp at hd ⊢; omega) rfl ?_ ?_ ?_
  · rw [hlen, Memory.readBytes_add, Memory.readBytes_writeBytes_out _ (by simp)]
    have h1 := Memory.readBytes_writeBytes (Codec.writeHeader s.cfg a) 0 s.txbuf
    have h2 := Memory.readBytes_writeBytes d Config.hdrLen
      (s.txbuf.writeBytes 0 (Codec.writeHeader s.cfg a))
    rw [length_writeHeader] at h1
    simp only [Nat.zero_add]
    rw [h1, h2]
  · intro h
    exact Memory.wf_writeBytes (Memory.wf_writeBytes h (by simp)) (by simp at hd ⊢; omega)
  · intro x hx
    rw [hlen] at hx
    rw [Memory.read_writeBytes_out _ (by omega), Memory.read_writeBytes_out _ (by simp at hx ⊢; omega)]

/-! ## Calls -/

/-- What a transmission can end in (R132). -/
theorem txWrite_cases (bs : List Byte) (s : State) :
    (bs = [] ∧ txWrite bs s = .stop .operandRange) ∨
    bs ≠ [] ∧
      ((∃ c, s.ans.tx = .count c ∧ bs.length < c ∧ txWrite bs s = .refuse .txCountAboveLength) ∨
       (s.ans.tx = .count bs.length ∧
          txWrite bs s = .ok { s with
            hist := s.hist ++ [.txWrite bs s.ans.tx], txcalls := s.txcalls + 1
            txwire := s.txwire ++ bs }) ∨
       (∃ c, s.ans.tx = .count c ∧ c < bs.length ∧
          txWrite bs s = .fail .shortWrite { s with
            hist := s.hist ++ [.txWrite bs s.ans.tx], txcalls := s.txcalls + 1
            txwire := s.txwire ++ bs.take c }) ∨
       (s.ans.tx = .err ∧
          txWrite bs s = .fail .writeFail { s with
            hist := s.hist ++ [.txWrite bs s.ans.tx], txcalls := s.txcalls + 1
            txwire := s.txwire ++ bs.take s.ans.wireOnErr })) := by
  by_cases hb : bs = []
  · exact .inl ⟨hb, if_pos hb⟩
  · refine .inr ⟨hb, ?_⟩
    unfold txWrite
    rw [if_neg hb]
    cases ha : s.ans.tx with
    | err => exact .inr (.inr (.inr ⟨rfl, rfl⟩))
    | count c =>
      by_cases h1 : bs.length < c
      · exact .inl ⟨c, rfl, h1, by simp [h1]⟩
      · by_cases h2 : c = bs.length
        · subst h2
          exact .inr (.inl ⟨rfl, by simp [State.log]⟩)
        · exact .inr (.inr (.inl ⟨c, rfl, by omega, by simp [h1, h2, State.log]⟩))

/-- What a poll can answer (R133). -/
theorem pollCall_cases (s : State) :
    (s.ans.poll = .err ∧ pollCall s = .err) ∨
    (s.ans.poll = .noData ∧ s.rxq = [] ∧ pollCall s = .noData) ∨
    (∃ b q, s.ans.poll = .byte ∧ s.rxq = b :: q ∧
      pollCall s = .byte b { s with hist := s.hist ++ [.poll (.byte b)], rxq := q }) ∨
    (((s.ans.poll = .noData ∧ s.rxq ≠ []) ∨ (s.ans.poll = .byte ∧ s.rxq = [])) ∧
      pollCall s = .illegal) := by
  unfold pollCall
  cases s.ans.poll <;> cases s.rxq <;> simp [State.log]

/-- What OPEN can end in (R131). -/
theorem openCall_cases (s : State) :
    (s.ans.openOk = true ∧
      openCall s =
        .ok { s with hist := s.hist ++ [.openPort true], portOpen := true, rxq := [] }) ∨
    (s.ans.openOk = false ∧
      openCall s = .fail .openFail { s with hist := s.hist ++ [.openPort false] }) := by
  unfold openCall
  cases s.ans.openOk <;> simp [State.log]

/-- What TXWRITE of an operand form can end in, besides what `txWrite_cases` says (R70, R132). -/
theorem txSend_cases (src : TxSrc) (s : State) :
    (src = .frame ∧ 521 < s.txlen ∧ txSend src s = .stop .txbufIndex) ∨
    ((src = .frame → s.txlen ≤ 521) ∧ txSend src s = txWrite (s.txBytes src) s) := by
  unfold txSend
  by_cases h : src = .frame ∧ Config.bufLen < s.txlen
  · exact .inl ⟨h.1, by simpa using h.2, if_pos h⟩
  · exact .inr ⟨fun e => by simpa [e] using h, if_neg h⟩

/-- What SINK_WRITE can end in (R139, R168). -/
theorem sinkCall_cases (s : State) :
    ((s.chunkLen.toNat = 0 ∨ 512 < s.chunkLen.toNat) ∧ sinkCall s = .stop .operandRange) ∨
    1 ≤ s.chunkLen.toNat ∧ s.chunkLen.toNat ≤ 512 ∧
      ((s.ans.sinkOk = true ∧
          sinkCall s = .ok { s with
            hist := s.hist ++ [.sinkWrite s.rxPayload true], sink := s.sink ++ s.rxPayload }) ∨
       (s.ans.sinkOk = false ∧
          sinkCall s = .fail .sinkFail { s with
            hist := s.hist ++ [.sinkWrite s.rxPayload false]
            sink := s.sink ++ s.ans.sinkOnErr })) := by
  have h0 : s.chunkLen = 0 ↔ s.chunkLen.toNat = 0 :=
    ⟨fun h => by simp [h], fun h => BitVec.eq_of_toNat_eq (by simpa using h)⟩
  unfold sinkCall
  by_cases h : s.chunkLen = 0 ∨ Config.chunkMax < s.chunkLen.toNat
  · exact .inl ⟨h.imp h0.1 (by simp), if_pos h⟩
  · rw [if_neg h]
    rw [not_or, h0] at h
    simp only [Config.chunkMax_eq] at h
    refine .inr ⟨by omega, by omega, ?_⟩
    cases s.ans.sinkOk <;> simp [State.log]

/-- What WAIT can end in (R141). -/
theorem waitCall_cases (t : WaitArg) (s : State) :
    (s.waiting = false ∧ waitCall t s = .hold { s with t0 := s.now, waiting := true }) ∨
    (s.waiting = true ∧ s.now - s.t0 < s.waitTicks t ∧ waitCall t s = .hold s) ∨
    (s.waiting = true ∧ s.waitTicks t ≤ s.now - s.t0 ∧
      waitCall t s = .ok { s with waiting := false }) := by
  unfold waitCall
  cases h : s.waiting with
  | false => simp
  | true =>
    by_cases ht : s.waitTicks t ≤ s.now - s.t0
    · simp [ht]
    · simp [ht, Nat.lt_of_not_le ht]

/-! ## The collector -/

/-- CHECKSUM_VALIDATE inside `rxbuf` passes or is a failed await (R123, R149). -/
theorem validateRx_eq {n : Nat} (s : State) (h0 : n ≠ 0) (h : n ≤ 521) :
    validateRx n s =
      if Codec.sum8 (s.rxbuf.readBytes 0 (n - 1)) = s.rxbuf.read (n - 1) then .ok s
      else failAwait .badChecksum s := by
  unfold validateRx
  rw [if_neg h0, if_neg (by simpa using h)]

theorem accept_eq {s : State} (h : s.cmode = .eq) (b : Byte) : accept b s = acceptEq b s := by
  unfold accept; rw [h]

theorem accept_ack {s : State} (h : s.cmode = .ack) (b : Byte) : accept b s = acceptAck b s := by
  unfold accept; rw [h]

theorem accept_count {s : State} (h : s.cmode = .count) (b : Byte) :
    accept b s = acceptCount s := by
  unfold accept; rw [h]

theorem accept_frame {s : State} (h : s.cmode = .frame) (b : Byte) :
    accept b s = acceptFrame b s := by
  unfold accept; rw [h]

/-- What AWAIT_FRAME's accept of a byte can end in (R147, R148): `u` is the state with the byte stored and
counted. -/
theorem acceptFrame_cases (b : Byte) (s : State) (hx : s.cidx < 521)
    (hn : s.cneed ≤ 521) :
    ∃ u : State, u = { s with rxbuf := Memory.write s.cidx b s.rxbuf, cidx := s.cidx + 1 } ∧
      ((∃ c ∈ [Cause.badMarker, .badStatus, .badLength, .lenMismatch, .badChecksum],
          acceptFrame b s = failAwait c u ∧ (s.cshape = .ack9 → c ≠ .badLength ∧ c ≠ .lenMismatch)) ∨
        ((s.cidx = 0 → b = s.cfg.raw.marker) ∧ (s.cidx = 1 → b = Config.statusOk) ∧
          ((s.cshape = .read ∧ s.cidx = 7 ∧
              Codec.rd16 (u.rxbuf.read 6) (u.rxbuf.read 7) = s.chunkLen ∧ s.chunkLen.toNat ≤ 512 ∧
              acceptFrame b s = .hold { u with cneed := 8 + s.chunkLen.toNat + 1 }) ∨
            (¬ (s.cshape = .read ∧ s.cidx = 7) ∧ s.cidx + 1 ≠ s.cneed ∧
              acceptFrame b s = .hold u) ∨
            (¬ (s.cshape = .read ∧ s.cidx = 7) ∧ s.cidx + 1 = s.cneed ∧
              Codec.sum8 (u.rxbuf.readBytes 0 s.cidx) = b ∧
              acceptFrame b s = .ok { u with cresult := .success, cmode := .idle })))) := by
  refine ⟨_, rfl, ?_⟩
  have hmem : ∀ {c : Cause}, c = .badMarker ∨ c = .badStatus ∨ c = .badLength ∨ c = .lenMismatch ∨
      c = .badChecksum → c ∈ [Cause.badMarker, .badStatus, .badLength, .lenMismatch, .badChecksum] := by
    simp
  unfold acceptFrame
  rw [if_neg (by simpa using hx)]
  by_cases h1 : s.cidx = 0 ∧ b ≠ s.cfg.raw.marker
  · exact .inl ⟨.badMarker, hmem (by simp), if_pos h1, by simp⟩
  by_cases h2 : s.cidx = 1 ∧ b ≠ Config.statusOk
  · exact .inl ⟨.badStatus, hmem (by simp), (if_neg h1).trans (if_pos h2), by simp⟩
  simp only
  rw [if_neg h1, if_neg h2]
  have p1 : s.cidx = 0 → b = s.cfg.raw.marker := fun e => by
    by_contra hb; exact h1 ⟨e, hb⟩
  have p2 : s.cidx = 1 → b = Config.statusOk := fun e => by
    by_contra hb; exact h2 ⟨e, hb⟩
  by_cases h3 : s.cshape = .read ∧ s.cidx = 7
  · unfold checkLength
    rw [if_pos ⟨h3.1, by simp [h3.2]⟩]
    simp only
    split_ifs with h4 h5
    · exact .inl ⟨.badLength, hmem (by simp), rfl, by simp [h3.1]⟩
    · exact .inl ⟨.lenMismatch, hmem (by simp), rfl, by simp [h3.1]⟩
    · have h6 := not_not.1 h5
      refine .inr ⟨p1, p2, .inl ⟨h3.1, h3.2, h6, by simpa [h6] using h4, ?_⟩⟩
      rw [h6, Act.andThen_ok]
      unfold checkEnd
      exact if_neg (by simp only [h3.2, Config.hdrLen_eq]; omega)
  · unfold checkLength
    rw [if_neg (fun h => h3 ⟨h.1, by simpa using h.2⟩), Act.andThen_ok]
    unfold checkEnd
    by_cases h4 : s.cidx + 1 = s.cneed
    · have hv : ∀ u : State, u.rxbuf = Memory.write s.cidx b s.rxbuf →
          validateRx s.cneed u =
            if Codec.sum8 (u.rxbuf.readBytes 0 s.cidx) = b then .ok u
            else failAwait .badChecksum u := by
        intro u hu
        rw [validateRx_eq u (by omega) hn, ← h4, Nat.add_sub_cancel, hu, Memory.read_write_self]
      rw [if_pos h4, hv _ rfl]
      split_ifs with h5
      · exact .inr ⟨p1, p2, .inr (.inr ⟨h3, h4, h5, rfl⟩)⟩
      · exact .inl ⟨.badChecksum, hmem (by simp), rfl, by simp⟩
    · exact .inr ⟨p1, p2, .inr (.inl ⟨h3, h4, if_neg h4⟩)⟩

/-- What the collect step can end in (R143): it fails on an error or at the deadline, it holds, it
accepts the polled byte, or the answer is not legal. -/
theorem collect_cases (s : State) :
    collect s = failAwait .readFail { s with hist := s.hist ++ [.poll .err] } ∨
    (s.ctimeout ≤ s.now - s.t0 ∧
      collect s = failAwait s.cmode.timeoutCause { s with hist := s.hist ++ [.poll .noData] }) ∨
    (s.now - s.t0 < s.ctimeout ∧ collect s = .hold s) ∨
    (∃ b q, s.rxq = b :: q ∧
      collect s = accept b { s with hist := s.hist ++ [.poll (.byte b)], rxq := q }) ∨
    collect s = .refuse .pollAnswerIllegal := by
  unfold collect
  rcases pollCall_cases s with ⟨-, h⟩ | ⟨-, -, h⟩ | ⟨b, q, -, hq, h⟩ | ⟨-, h⟩
  · rw [h]; exact .inl rfl
  · rw [h]
    by_cases ht : s.ctimeout ≤ s.now - s.t0
    · exact .inr (.inl ⟨ht, if_pos ht⟩)
    · exact .inr (.inr (.inl ⟨by omega, if_neg ht⟩))
  · rw [h]; exact .inr (.inr (.inr (.inl ⟨b, q, hq, rfl⟩)))
  · rw [h]; exact .inr (.inr (.inr (.inr rfl)))

/-- What WR_SRC can end in (R203). -/
theorem srcStep_cases (s : State) :
    (∃ b, s.ans.src = .byte b ∧ s.widx < 513 ∧
      srcStep s = .ok { s with
        txbuf := Memory.write (8 + s.widx) b s.txbuf, widx := s.widx + 1
        hist := s.hist ++ [.srcRead (.byte b)] }) ∨
    (∃ b, s.ans.src = .byte b ∧ 513 ≤ s.widx ∧ srcStep s = .stop .txbufIndex) ∨
    (s.ans.src = .finished ∧
      srcStep s = .fail .srcShort { s with hist := s.hist ++ [.srcRead .finished] }) ∨
    (s.ans.src = .err ∧
      srcStep s = .fail .srcFail { s with hist := s.hist ++ [.srcRead .err] }) := by
  unfold srcStep
  cases h : s.ans.src with
  | finished => exact .inr (.inr (.inl ⟨rfl, rfl⟩))
  | err => exact .inr (.inr (.inr ⟨rfl, rfl⟩))
  | byte b =>
    by_cases hw : s.widx < 513
    · refine .inl ⟨b, rfl, hw, ?_⟩
      simp only
      rw [storeTx_eq _ (by simp; omega)]
      rfl
    · refine .inr (.inl ⟨b, rfl, by omega, ?_⟩)
      simp only [storeTx]
      rw [if_neg (by simp; omega)]
      rfl

end Sys2Proof.Machine
end

