-- ==== Sys2Proof/Laws/Engine.lean ====
section
/-!
SUPPORT. What one move of each agent does, said once over the meanings of the instructions.
-/

namespace Sys2Proof.Machine

/-- Taking the next move off the schedule changes the schedule only. -/
theorem nextTurn_snd {s u : State} {m : Config.Turn} (h : s.nextTurn = (m, u)) :
    ∃ ms d, u = { s with inputs := ms, draws := d } := by
  unfold State.nextTurn at h
  split at h
  · exact ⟨_, s.draws, (Prod.mk.inj h).2.symm⟩
  · exact ⟨s.inputs, _, (Prod.mk.inj h).2.symm⟩

theorem step_of_nextTurn {s u : State} {m : Config.Turn} (h : s.nextTurn = (m, u)) :
    step s = runTurn m u := by
  unfold step runNext; rw [h]

/-- The engine's step, by the collector's mode and the step register (R143, R192). -/
theorem engineStep_eq (s : State) :
    engineStep s =
      match s.step, s.cmode with
      | .idle, _ => .next s
      | .range, .idle => execSeqRange s
      | .openPort, .idle => execOpenPort s
      | .hs h, .idle => execSeqHandshake h s
      | .ld l, .idle => execSeqLoader l s
      | .opDispatch, .idle => execSeqDispatch s
      | .rd r, .idle => execSeqReadChunk r s
      | .wr w, .idle => execSeqWriteChunk w s
      | .er e, .idle => execSeqErase e s
      | .td t, .idle => execSeqTeardown t s
      | st, _ => (collect s).settle st (State.finishAwait st) := by
  unfold engineStep State.engineCode
  cases hs : s.step <;> cases hc : s.cmode <;>
    simp [runCode, decode, Decode.stage, Decode.mode, CMode.code, exec, execAwaitEq, execAwaitAck,
      execAwaitCount, execAwaitFrame, runAwait, hs, hc]

/-- The Peer's bytes join the queue, whatever they are (R11, R45). -/
theorem peer_receives (s : State) (bs : List Byte) :
    ∃ x, runCode (s.receivedCode bs) (State.receive bs) s = .next (s.receive x) := by
  unfold runCode
  cases hd : decode s.cfg (s.receivedCode bs) with
  | error e => exact ⟨bs, rfl⟩
  | ok i =>
    dsimp only
    simp only [State.receivedCode] at hd
    split at hd <;> simp only [decode, Decode.reply, Decode.stream, Decode.response] at hd
    all_goals repeat' split at hd
    all_goals try cases hd
    all_goals exact ⟨_, rfl⟩

/-- A write of CTRL.START runs START with the request in REQ_OP (R87, R193). -/
theorem request_starts (s : State) :
    runCode s.requestCode id s = .next (s.start (Codec.opOfCode s.reqOp)) := by
  have h : (s.hostReg 0).extractLsb' 0 2 = s.reqOp := by
    simp only [State.hostReg, if_true]
    generalize s.reqOp = v
    revert v
    decide
  simp only [runCode, State.requestCode, decode, Decode.request, h]
  cases Codec.opOfCode s.reqOp <;> rfl

/-- A host access moves the request registers, runs START, or does nothing (R22 to R27, R276). -/
theorem hostWriteStep_eq (n : Nat) (v : Word) (s : State) :
    hostWriteStep n v s =
      if n = 4 ∧ v.getLsbD 0 = true then .next (s.start (Codec.opOfCode s.reqOp))
      else .next (s.hostStore n v) := by
  unfold hostWriteStep
  rw [request_starts]
  rfl

/-- Reset leaves both frame buffers in canonical form (R44). -/
theorem resetWith_buffers_wf (c : Config.Params) :
    (State.resetWith c).txbuf.wf = true ∧ (State.resetWith c).rxbuf.wf = true := ⟨rfl, rfl⟩

end Sys2Proof.Machine
end

