-- ==== Sys2Proof/Laws/Invariant.lean ====
section
/-!
SUPPORT. What the invariant says at the steps of the sequencer, in the form its users need.
-/

namespace Sys2Proof.Machine

/-- The invariant reads neither the request registers, the receive queue, the history, the TX wire, nor the
model's own schedule. -/
theorem Inv.of_unread {s t : State} (h : Inv s)
    (e : t = { s with
      reqOp := t.reqOp, reqAddr := t.reqAddr, reqLen := t.reqLen, pwrDelay := t.pwrDelay, rxq := t.rxq
      hist := t.hist, txwire := t.txwire, rdata := t.rdata, sumOut := t.sumOut, ans := t.ans
      inputs := t.inputs, draws := t.draws }) : Inv t := by
  rw [e]
  exact ⟨h.buffers, h.flags, h.failure, h.resources, h.collector, h.region, h.stage, h.session, h.transfer,
    h.image, h.counts, h.success, h.frame, h.sink, h.clock, h.rejected, h.response⟩

/-- While a session works towards its end nothing has failed (R30, R42). -/
theorem Inv.working_facts {s : State} (h : Inv s) (hw : s.step.working = true) :
    s.busy = true ∧ s.done = false ∧ s.ok = false ∧ s.failed = false ∧ s.err = 0 := by
  have hi : s.step ≠ .idle := by intro e; rw [e] at hw; cases hw
  have hb := h.flags.1.2 hi
  have hd : s.done = false := by
    have := h.flags.2.1; rw [hb] at this; cases hx : s.done <;> simp_all
  have hf : s.failed = false := by
    have := h.failure.2.2; cases hx : s.failed <;> simp_all
  have he : s.err = 0 := by
    have := h.failure.1; rw [hf] at this; simpa using this
  have ho : s.ok = false := by
    have := h.flags.2.2; rw [hd] at this; cases hx : s.ok <;> simp_all
  exact ⟨hb, hd, ho, hf, he⟩

/-- The collector is idle at every step that is no await (R43, R142). -/
theorem Inv.cmode_idle {s : State} (h : Inv s) (hn : awaitMode s.step = none) : s.cmode = .idle := by
  have hcol := h.collector
  unfold CollectorOk at hcol
  split at hcol
  · assumption
  · rw [hcol.1] at hn; simp [awaitMode] at hn
  · rcases hcol.1 with e | e <;> rw [e] at hn <;> simp [awaitMode] at hn
  · rw [hcol.1] at hn; simp [awaitMode] at hn
  · split at hcol
    · rw [hcol.1] at hn; simp [awaitMode] at hn
    · rcases hcol.1 with e | e <;> rw [e] at hn <;> simp [awaitMode] at hn

/-- The numbers of the chunk in flight (R160, R161, R194). -/
theorem Inv.chunk_facts {s : State} (h : Inv s) (hi : s.step.inChunk = true) :
    0 < s.remaining.toNat ∧ s.chunkLen.toNat = min s.remaining.toNat 512 ∧
      s.addr0.toNat + s.len0.toNat ≤ 16384 ∧ s.xfer.toNat + s.remaining.toNat = s.len0.toNat ∧
      s.curAddr.toNat = s.addr0.toNat + s.xfer.toNat ∧ s.xfer.toNat = 512 * s.chunks.toNat := by
  have ht : s.step.transferring = true := by
    revert hi; cases s.step <;> simp [SeqStep.inChunk, SeqStep.transferring]
  have hw : s.step.working = true := by
    revert hi; cases s.step <;> simp [SeqStep.inChunk, SeqStep.working]
  obtain ⟨hx, ha, hc, -, he⟩ := h.transfer ht
  have hr : s.op = .read ∨ s.op = .write := by
    have := h.stage
    revert ht this
    unfold StageOk
    cases hx : s.step <;> simp [SeqStep.transferring] <;> tauto
  have hl := (h.region ⟨hw, by intro e; rw [e] at ht; cases ht⟩).1 hr
  have he := he hi
  simp only [ne_eq, Config.chunkMax_eq, Config.capacity_eq] at he hl hc
  refine ⟨?_, he.2, hl, hx, ha, hc he.1⟩
  rcases Nat.eq_zero_or_pos s.remaining.toNat with h | h
  · exact absurd (BitVec.eq_of_toNat_eq (by simpa using h)) he.1
  · exact h

/-- No constant table is empty (R97, R100, R273). -/
theorem assetBytes_ne_nil (c : Config.Params) (k : Asset) : Codec.assetBytes c k ≠ [] := by
  have := c.ok
  simp [Config.Raw.valid] at this
  cases k <;> simp [Codec.assetBytes, Codec.trainingPairs, this]

/-- At the step that sends a command frame, the frame lies whole inside `txbuf` (R44, R162 to R165). -/
theorem Inv.txlen_bounds {s : State} (h : Inv s)
    (hs : s.step = .rd .tx ∨ s.step = .wr .tx ∨ s.step = .er .tx) : 9 ≤ s.txlen ∧ s.txlen ≤ 521 := by
  have hf := h.frame
  unfold FrameOk State.builtFrame at hf
  have hl : s.txFrame.length = s.txlen := by simp [State.txFrame]
  rw [← hl]
  rcases hs with e | e | e
  · rw [e] at hf; dsimp only at hf; rw [hf]; simp
  · have := h.chunk_facts (by rw [e]; rfl)
    rw [e] at hf; dsimp only at hf; rw [hf]; simp [State.imageBytes]; omega
  · rw [e] at hf
    dsimp only at hf
    by_cases h0 : s.addr0 = 0
    · rw [if_pos h0] at hf; dsimp only at hf; rw [hf]; simp
    · rw [if_neg h0] at hf; dsimp only at hf; rw [hf]; simp

end Sys2Proof.Machine
end

