-- ==== Sys2Proof/Laws/PerInstr.lean ====
section
/-!
SUPPORT. Statements made per instruction: the size of every encoding (R90 to R102).
-/

namespace Sys2Proof.Laws

/-- The bytes a code occupies, for the codes that are bytes or a register's content. -/
def codeBytes : Code → Option Nat
  | .request _ => some 4
  | .command bs => some bs.length
  | .response _ bs => some bs.length
  | .reply bs => some bs.length
  | .stream bs => some bs.length
  | .asset _ bs => some bs.length
  | .mode _ => none
  | .sum _ => none
  | .call _ => none
  | .start => none
  | .stage _ => none

/-- The size the spec gives an instruction's encoding: a payload adds its own bytes to the nine of header
and trailer (R90, R92, R95). -/
def specBytes (c : Config.Params) : Instr → Option Nat
  | .reqConnectOnly => some 4
  | .reqRead => some 4
  | .reqWrite => some 4
  | .reqErase => some 4
  | .cmdRead _ _ => some 9
  | .cmdWrite _ d => some (9 + d.length)
  | .cmdEraseAll => some 9
  | .cmdEraseSector _ => some 9
  | .rspRead _ d => some (9 + d.length)
  | .rspAck9 _ _ _ _ _ _ => some 9
  | .hsTraining => some 96
  | .hsAck => some 1
  | .genAck => some 1
  | .execStream _ => some 11
  | .announceCmd => some c.raw.announce.length
  | .loaderBin => some c.raw.loader.length
  | .executeCmd => some c.raw.execute.length
  | .checksum _ => none
  | .checksumStamp _ => none
  | .checksumValidate _ => none
  | .awaitEq => none
  | .awaitAck => none
  | .awaitCount => none
  | .awaitFrame => none
  | .openPort => none
  | .txwrite _ => none
  | .poll => none
  | .flush => none
  | .ctlAssert => none
  | .ctlRelease => none
  | .close => none
  | .srcRead => none
  | .sinkWrite => none
  | .streamClose => none
  | .wait _ => none
  | .seqStart => none
  | .seqRange => none
  | .seqHandshake _ => none
  | .seqLoader _ => none
  | .seqDispatch => none
  | .seqReadChunk _ => none
  | .seqWriteChunk _ => none
  | .seqErase _ => none
  | .seqTeardown _ => none

/-- Every well-formed instruction is encoded in the size the spec gives it. -/
def EncodedSize.Statement (i : Instr) : Prop :=
  ∀ c : Config.Params, i.wf = true → codeBytes (encode c i) = specBytes c i

theorem EncodedSize.reqConnectOnly : EncodedSize.Statement (.reqConnectOnly) := fun _ _ => rfl
theorem EncodedSize.reqRead : EncodedSize.Statement (.reqRead) := fun _ _ => rfl
theorem EncodedSize.reqWrite : EncodedSize.Statement (.reqWrite) := fun _ _ => rfl
theorem EncodedSize.reqErase : EncodedSize.Statement (.reqErase) := fun _ _ => rfl
theorem EncodedSize.cmdRead (a : Word) (n : Half) : EncodedSize.Statement (.cmdRead a n) := fun _ _ => rfl
theorem EncodedSize.cmdWrite (a : Word) (d : List Byte) : EncodedSize.Statement (.cmdWrite a d) := by
  intro c h
  simp [codeBytes, encode, specBytes, Codec.stamped, Codec.writeHeader]
  omega
theorem EncodedSize.cmdEraseAll : EncodedSize.Statement (.cmdEraseAll) := fun _ _ => rfl
theorem EncodedSize.cmdEraseSector (t : Word) : EncodedSize.Statement (.cmdEraseSector t) := fun _ _ => rfl
theorem EncodedSize.rspRead (echo : Word) (d : List Byte) :
    EncodedSize.Statement (.rspRead echo d) := by
  intro c h
  simp [codeBytes, encode, specBytes, Codec.stamped, Codec.rspReadBody]
  omega
theorem EncodedSize.rspAck9 (r2 r3 r4 r5 r6 r7 : Byte) :
    EncodedSize.Statement (.rspAck9 r2 r3 r4 r5 r6 r7) := fun _ _ => rfl
theorem EncodedSize.hsTraining : EncodedSize.Statement (.hsTraining) := fun _ _ => rfl
theorem EncodedSize.hsAck : EncodedSize.Statement (.hsAck) := fun _ _ => rfl
theorem EncodedSize.genAck : EncodedSize.Statement (.genAck) := fun _ _ => rfl
theorem EncodedSize.execStream (bs : List Byte) : EncodedSize.Statement (.execStream bs) := by
  intro c h
  simpa [codeBytes, encode, specBytes, Instr.wf] using h
theorem EncodedSize.announceCmd : EncodedSize.Statement (.announceCmd) := fun _ _ => rfl
theorem EncodedSize.loaderBin : EncodedSize.Statement (.loaderBin) := fun _ _ => rfl
theorem EncodedSize.executeCmd : EncodedSize.Statement (.executeCmd) := fun _ _ => rfl
theorem EncodedSize.checksum (bs : List Byte) : EncodedSize.Statement (.checksum bs) := fun _ _ => rfl
theorem EncodedSize.checksumStamp (n : Nat) : EncodedSize.Statement (.checksumStamp n) := fun _ _ => rfl
theorem EncodedSize.checksumValidate (n : Nat) : EncodedSize.Statement (.checksumValidate n) := fun _ _ => rfl
theorem EncodedSize.awaitEq : EncodedSize.Statement (.awaitEq) := fun _ _ => rfl
theorem EncodedSize.awaitAck : EncodedSize.Statement (.awaitAck) := fun _ _ => rfl
theorem EncodedSize.awaitCount : EncodedSize.Statement (.awaitCount) := fun _ _ => rfl
theorem EncodedSize.awaitFrame : EncodedSize.Statement (.awaitFrame) := fun _ _ => rfl
theorem EncodedSize.openPort : EncodedSize.Statement (.openPort) := fun _ _ => rfl
theorem EncodedSize.txwrite (src : TxSrc) : EncodedSize.Statement (.txwrite src) := fun _ _ => rfl
theorem EncodedSize.poll : EncodedSize.Statement (.poll) := fun _ _ => rfl
theorem EncodedSize.flush : EncodedSize.Statement (.flush) := fun _ _ => rfl
theorem EncodedSize.ctlAssert : EncodedSize.Statement (.ctlAssert) := fun _ _ => rfl
theorem EncodedSize.ctlRelease : EncodedSize.Statement (.ctlRelease) := fun _ _ => rfl
theorem EncodedSize.close : EncodedSize.Statement (.close) := fun _ _ => rfl
theorem EncodedSize.srcRead : EncodedSize.Statement (.srcRead) := fun _ _ => rfl
theorem EncodedSize.sinkWrite : EncodedSize.Statement (.sinkWrite) := fun _ _ => rfl
theorem EncodedSize.streamClose : EncodedSize.Statement (.streamClose) := fun _ _ => rfl
theorem EncodedSize.wait (t : WaitArg) : EncodedSize.Statement (.wait t) := fun _ _ => rfl
theorem EncodedSize.seqStart : EncodedSize.Statement (.seqStart) := fun _ _ => rfl
theorem EncodedSize.seqRange : EncodedSize.Statement (.seqRange) := fun _ _ => rfl
theorem EncodedSize.seqHandshake (h : HsStep) : EncodedSize.Statement (.seqHandshake h) := fun _ _ => rfl
theorem EncodedSize.seqLoader (l : LdStep) : EncodedSize.Statement (.seqLoader l) := fun _ _ => rfl
theorem EncodedSize.seqDispatch : EncodedSize.Statement (.seqDispatch) := fun _ _ => rfl
theorem EncodedSize.seqReadChunk (r : RdStep) : EncodedSize.Statement (.seqReadChunk r) := fun _ _ => rfl
theorem EncodedSize.seqWriteChunk (w : WrStep) : EncodedSize.Statement (.seqWriteChunk w) := fun _ _ => rfl
theorem EncodedSize.seqErase (e : ErStep) : EncodedSize.Statement (.seqErase e) := fun _ _ => rfl
theorem EncodedSize.seqTeardown (t : TdStep) : EncodedSize.Statement (.seqTeardown t) := fun _ _ => rfl

end Sys2Proof.Laws
end

