-- ==== Sys2Proof/Laws/Runs.lean ====
section
/-!
SUPPORT. Runs: what one more step does to a run, and what holds along an infinite execution.
-/

namespace Sys2Proof.Machine

@[simp] theorem schedule_nextTurn (m : Config.Turn) (s : State) : (s.schedule m).nextTurn = (m, s) := rfl

/-- A step of a state with a scheduled move is that move. -/
@[simp] theorem step_schedule (m : Config.Turn) (s : State) : step (s.schedule m) = runTurn m s := rfl

theorem run_of_next {s t : State} (h : step s = .next t) (k : Nat) :
    Host.Core.run core (k + 1) s = Host.Core.run core k t := by
  have h' : core.step s = .next t := h
  simp only [Host.Core.run, h']

theorem run_of_fault {s : State} {f : Fault} (h : step s = .fault f) (k : Nat) :
    Host.Core.run core (k + 1) s = .fault f := by
  have h' : core.step s = .fault f := h
  simp only [Host.Core.run, h']

theorem run_of_refused {s : State} {r : Refusal} (h : step s = .refused r) (k : Nat) :
    Host.Core.run core (k + 1) s = .refused r := by
  have h' : core.step s = .refused r := h
  simp only [Host.Core.run, h']

/-- Scheduled Clock moves, one after the other, advance `now` and nothing else (R48). -/
theorem run_clocks (n : Nat) (s : State) (ms : List Config.Turn)
    (h : s.inputs = List.replicate n .clock ++ ms) (k : Nat) :
    Host.Core.run core (n + k) s = Host.Core.run core k { s with now := s.now + n, inputs := ms } := by
  induction n generalizing s with
  | zero =>
    rw [List.replicate_zero, List.nil_append] at h
    subst h
    rw [Nat.zero_add]
    rfl
  | succ n ih =>
    have hs : step s = .next { s with now := s.now + 1, inputs := List.replicate n .clock ++ ms } := by
      simp [step, runNext, State.nextTurn, h, List.replicate_succ, runTurn]
    rw [show n + 1 + k = (n + k) + 1 by omega, run_of_next hs, ih _ rfl]
    simp only [Nat.add_assoc, Nat.add_comm 1 n]

/-- A property that scheduling a move and every step keep holds of every state of an execution. -/
theorem execution_keeps {σ : Nat → Config.Turn} {τ : Nat → State} (h : Execution σ τ) {P : State → Prop}
    (hm : ∀ (s : State) (m : Config.Turn), P s → P (s.schedule m))
    (hs : ∀ s t : State, P s → step s = .next t → P t) (h0 : P (τ 0)) (n : Nat) : P (τ n) := by
  induction n with
  | zero => exact h0
  | succ n ih => exact hs _ _ (hm _ _ ih) (h n)

end Sys2Proof.Machine

namespace Sys2Proof.Config

/-- The free draws tick again, whatever was drawn so far (R12). -/
theorem draw_clock (k : Nat) : ∃ n, draw (k + n) = .clock := by
  obtain ⟨m, h, e⟩ := draws.fair k
  refine ⟨m - k, ?_⟩
  rw [show k + (m - k) = m by omega]
  exact e

end Sys2Proof.Config
end

