-- ==== Sys2Proof/Tests/Slice0.lean ====
section
/-!
SUPPORT. The model's own tests. Expected values come from spec/95_test_vectors.md (V<n>) or from the encoding
tables, written out by hand; a theorem named `witness_<Statement>` shows a concrete state and operands that
meet the hypotheses of that statement.
-/

set_option linter.unusedSimpArgs false

namespace Sys2Proof.Tests.Slice0

open Sys2Proof Sys2Proof.Machine

/-! ## Helpers -/

/-- The placeholder profile TP of spec/95_test_vectors.md, with short assets and small tick counts. -/
def tp : Config.Params :=
  ⟨⟨0x5A, 1, 2, 3, 4, [0xA1], [0xB1, 0xB2], [0xC1], 7, 7, 7, 7, 7, 7, 7, 3, 3, 3, 3, 3, 1, .one⟩,
    by decide⟩

/-- Power-on with profile TP. -/
def base : State := State.resetWith tp

/-- Answers under which every call goes well. -/
def good : Config.Answers :=
  { openOk := true, tx := .count 9, wireOnErr := 0, poll := .byte, closeOk := true, src := .byte 0xDE
    sinkOk := true, sinkOnErr := [] }

/-- A step answered NoData. -/
def quiet : Config.Answers := { good with poll := .noData }

/-- A session at a step, with the port open. -/
def busyAt (op : Op) (st : SeqStep) : State :=
  { base with
    busy := true, op := op, step := st, session := st.sessionAt, portOpen := true
    streamOpen := decide (op = .read ∨ op = .write), txcalls := BitVec.ofNat 32 st.sent, ans := good }

/-- A state whose collector waits in a mode at a step. -/
def awaiting (op : Op) (st : SeqStep) (m : CMode) (sh : Shape) (q : List Byte) : State :=
  { busyAt op st with
    cmode := m, cshape := sh, cexp := 0x11, cneed := m.need sh, ctimeout := 7, rxq := q }

/-- `s` with bytes already collected in `rxbuf`. -/
def collected (bs : List Byte) (s : State) : State :=
  { s with rxbuf := Memory.writeBytes [] 0 bs, cidx := bs.length }

/-- A field of the state an outcome goes on in. -/
def after {α : Type} (o : Out) (f : State → α) : Option α :=
  match o with
  | .next t => some (f t)
  | .fault _ => none
  | .refused _ => none

def decodesTo (k : Code) (i : Instr) : Bool :=
  match decode tp k with
  | .ok j => j == i
  | .error _ => false

def rejects (k : Code) (e : DecodeError) : Bool :=
  match decode tp k with
  | .ok _ => false
  | .error d => d == e

/-! ## Ill-formed terms are refused, one for each check -/

theorem test_wf_cmdRead_zero : (Instr.cmdRead 0 0).wf = false := by decide
theorem test_wf_cmdRead_long : (Instr.cmdRead 0 0x201).wf = false := by decide
theorem test_wf_cmdWrite_empty : (Instr.cmdWrite 0 []).wf = false := by decide
theorem test_wf_cmdWrite_long (d : List Byte) (h : d.length = 513) : (Instr.cmdWrite 0 d).wf = false := by
  simp [Instr.wf, h]
theorem test_wf_cmdEraseSector_zero : (Instr.cmdEraseSector 0).wf = false := by decide
theorem test_wf_cmdEraseSector_high : (Instr.cmdEraseSector 0x4000).wf = false := by decide
theorem test_wf_rspRead_long (d : List Byte) (h : d.length = 513) : (Instr.rspRead 0 d).wf = false := by
  simp [Instr.wf, h]
theorem test_wf_execStream_short : (Instr.execStream (List.replicate 10 0)).wf = false := by decide
theorem test_wf_checksum_long (d : List Byte) (h : d.length = 521) : (Instr.checksum d).wf = false := by
  simp [Instr.wf, h]
theorem test_wf_checksumStamp_low : (Instr.checksumStamp 7).wf = false := by decide
theorem test_wf_checksumStamp_high : (Instr.checksumStamp 521).wf = false := by decide
theorem test_wf_checksumValidate_low : (Instr.checksumValidate 8).wf = false := by decide
theorem test_wf_checksumValidate_high : (Instr.checksumValidate 522).wf = false := by decide

/-! ## Words written out from the encoding tables -/

-- R87: REQ_OP bits [1:0]; the other bits are not stored
theorem test_decode_reqConnectOnly : decodesTo (.request 0xFFFFFFFC) .reqConnectOnly = true := by decide
theorem test_decode_reqRead : decodesTo (.request 0x00000001) .reqRead = true := by decide
theorem test_decode_reqWrite : decodesTo (.request 0x80000002) .reqWrite = true := by decide
theorem test_decode_reqErase : decodesTo (.request 0xFFFFFFFF) .reqErase = true := by decide

-- V26
theorem test_decode_cmdRead :
    decodesTo (.command [0x5A, 0x01, 0xFF, 0x3F, 0x00, 0x00, 0x01, 0x00, 0x9A]) (.cmdRead 0x3FFF 1) = true := by
  decide
-- V27
theorem test_decode_cmdWrite :
    decodesTo (.command [0x5A, 0x02, 0xF0, 0x3F, 0x00, 0x00, 0x00, 0x00, 0xDE, 0xAD, 0x16])
      (.cmdWrite 0x3FF0 [0xDE, 0xAD]) = true := by
  decide
-- V30
theorem test_decode_cmdEraseAll :
    decodesTo (.command [0x5A, 0x03, 0x00, 0x00, 0x00, 0x00, 0x00, 0x00, 0x5D]) .cmdEraseAll = true := by
  decide
-- V32
theorem test_decode_cmdEraseSector :
    decodesTo (.command [0x5A, 0x04, 0xFF, 0x3F, 0x00, 0x00, 0x00, 0x00, 0x9C]) (.cmdEraseSector 0x3FFF) =
      true := by
  decide
-- V21's base frame
theorem test_decode_rspRead :
    decodesTo (.response .read [0x5A, 0x00, 0x00, 0x08, 0x00, 0x00, 0x04, 0x00, 0x10, 0x20, 0x30, 0x40, 0x06])
      (.rspRead 0x0800 [0x10, 0x20, 0x30, 0x40]) = true := by
  decide
-- V21's second base frame
theorem test_decode_rspAck9 :
    decodesTo (.response .ack9 [0x5A, 0x00, 0x01, 0x02, 0x03, 0x04, 0x05, 0x06, 0x6F])
      (.rspAck9 1 2 3 4 5 6) = true := by
  decide
-- R97, R100: the constant tables
theorem test_decode_hsTraining :
    decodesTo (.asset .training ((List.replicate 48 [(0x18 : Byte), 0xFF]).flatten)) .hsTraining = true := by
  decide
theorem test_decode_announceCmd : decodesTo (.asset .announce [0xA1]) .announceCmd = true := by decide
theorem test_decode_loaderBin : decodesTo (.asset .loader [0xB1, 0xB2]) .loaderBin = true := by decide
theorem test_decode_executeCmd : decodesTo (.asset .execute [0xC1]) .executeCmd = true := by decide
-- V8
theorem test_decode_hsAck : decodesTo (.reply [0b00010001]) .hsAck = true := by decide
theorem test_decode_genAck : decodesTo (.reply [0b00000001]) .genAck = true := by decide
-- V9
theorem test_decode_execStream :
    decodesTo (.stream [9, 8, 7, 6, 5, 4, 3, 2, 1, 0, 255])
      (.execStream [9, 8, 7, 6, 5, 4, 3, 2, 1, 0, 255]) = true := by
  decide
-- R151: the mode codes
theorem test_decode_awaitEq : decodesTo (.mode 0b001) .awaitEq = true := by decide
theorem test_decode_awaitAck : decodesTo (.mode 0b010) .awaitAck = true := by decide
theorem test_decode_awaitCount : decodesTo (.mode 0b011) .awaitCount = true := by decide
theorem test_decode_awaitFrame : decodesTo (.mode 0b100) .awaitFrame = true := by decide
-- R121 to R123: the checksum primitives
theorem test_decode_checksum : decodesTo (.sum (.compute [0x18])) (.checksum [0x18]) = true := by decide
theorem test_decode_checksumStamp : decodesTo (.sum (.stamp 8)) (.checksumStamp 8) = true := by decide
theorem test_decode_checksumValidate :
    decodesTo (.sum (.validate 521)) (.checksumValidate 521) = true := by
  decide
-- R130 to R141: the calls, as the table writes them
theorem test_decode_calls :
    [Call.openPort, .poll, .flush, .ctlAssert, .ctlRelease, .close, .srcRead, .sinkWrite, .streamClose,
        .txwrite .frame, .wait .pdelay].map Decode.call =
      [Instr.openPort, .poll, .flush, .ctlAssert, .ctlRelease, .close, .srcRead, .sinkWrite, .streamClose,
        .txwrite .frame, .wait .pdelay] := by
  decide
-- R191: the stages
theorem test_decode_seqStart : decodesTo .start .seqStart = true := by decide
theorem test_decode_stages :
    (decodesTo (.stage .range) .seqRange && decodesTo (.stage .openPort) .openPort &&
      decodesTo (.stage (.hs .flush)) (.seqHandshake .flush) &&
      decodesTo (.stage (.ld .final)) (.seqLoader .final) && decodesTo (.stage .opDispatch) .seqDispatch &&
      decodesTo (.stage (.rd .commit)) (.seqReadChunk .commit) &&
      decodesTo (.stage (.wr .src)) (.seqWriteChunk .src) &&
      decodesTo (.stage (.er .build)) (.seqErase .build) &&
      decodesTo (.stage (.td .finish)) (.seqTeardown .finish)) = true := by
  decide

-- what is no instruction is refused by name (R88, R103, R104, R151, R192)
theorem test_reject_marker :
    rejects (.command [0xA5, 0x03, 0, 0, 0, 0, 0, 0, 0xA8]) .badMarker = true := by decide
theorem test_reject_subop :
    rejects (.command [0x5A, 0x05, 0, 0, 0, 0, 0, 0, 0x5F]) .unknownSubop = true := by decide
theorem test_reject_trailer :
    rejects (.command [0x5A, 0x03, 0, 0, 0, 0, 0, 0, 0x5C]) .badChecksum = true := by decide
theorem test_reject_eraseAll_slot :
    rejects (.command [0x5A, 0x03, 1, 0, 0, 0, 0, 0, 0x5E]) .badAddress = true := by decide
theorem test_reject_status :
    rejects (.response .ack9 [0x5A, 1, 0, 0, 0, 0, 0, 0, 0x5B]) .badStatus = true := by decide
theorem test_reject_mode : (rejects (.mode 0) .noMode && rejects (.mode 5) .noMode) = true := by decide
theorem test_reject_idle : rejects (.stage .idle) .noStep = true := by decide

/-! ## The table's words and the fetch -/

theorem test_tableWord_request : decodeTableWord 32 0x00000002 = some .reqWrite := by decide
theorem test_tableWord_mode : decodeTableWord 8 0x04 = some .awaitFrame := by decide
theorem test_tableWord_hsAck : decodeTableWord 8 0x11 = some .hsAck := by decide

/-- The very next step runs the placed request: BUSY rises and the session is at RANGE (R193). -/
theorem test_withFetchWord_runs :
    after (step (base.withFetchWord 32 3)) (fun t => (t.op, t.busy, t.step)) =
      some (Op.erase, true, SeqStep.range) := by
  decide

/-! ## Host requests, START and the host registers -/

theorem test_reqConnectOnly_starts :
    after (exec .reqConnectOnly base) (fun t => (t.op, t.streamOpen, t.step)) =
      some (Op.connectOnly, false, SeqStep.range) := by
  decide
theorem test_reqRead_latches :
    after (exec .reqRead { base with reqAddr := 0x1000, reqLen := 0x201, err := 0x114, done := true })
        (fun t => (t.op, t.addr0, t.len0, t.err, t.done, t.streamOpen)) =
      some (Op.read, 0x1000, 0x201, 0, false, true) := by
  decide
-- V49
theorem test_reqWrite_ignored_while_busy :
    after (exec .reqWrite { base with busy := true, reqAddr := 5 }) (fun t => (t.op, t.addr0, t.step)) =
      some (Op.connectOnly, 0, SeqStep.idle) := by
  decide
theorem test_reqErase_starts :
    after (exec .reqErase { base with pwrDelay := 9 }) (fun t => (t.op, t.pdelay, t.streamOpen)) =
      some (Op.erase, 9, false) := by
  decide
theorem test_seqStart_reads_reqOp :
    after (exec .seqStart { base with reqOp := 2 }) (fun t => (t.op, t.busy)) = some (Op.write, true) := by
  decide
-- V47, V50, V51
theorem test_hostReg :
    ((base.hostStore 0 0xFFFFFFFF).hostReg 0, base.hostReg 4, base.hostReg 12) =
      ((0x3 : Word), (0 : Word), (0 : Word)) := by
  decide
-- V48
theorem test_hostStore_while_busy :
    (State.hostStore { base with busy := true } 1 0x1234).reqAddr = 0 := by decide
-- V52 to V58
theorem test_errWord_vectors :
    [errWord .region 1, errWord .timeoutEq 3, errWord .nack 5, errWord .badStatus 8, errWord .openFail 2,
        errWord .sinkFail 7, errWord .srcShort 8] =
      [0x114, 0x132, 0x253, 0x483, 0x121, 0x375, 0x285] := by
  decide
-- V59, V60, V61
theorem test_statusWord_vectors :
    [State.statusWord { base with done := true, ok := true, session := .closed },
        State.statusWord { base with done := true, session := .closed },
        State.statusWord { base with busy := true, session := .connected }] =
      [0x76, 0x72, 0x11] := by
  decide

/-! ## Builders and checksums -/

-- V22
theorem test_cmdRead_bytes :
    after (exec (.cmdRead 0x1000 0x200) base) State.txFrame =
      some [0x5A, 0x01, 0x00, 0x10, 0x00, 0x00, 0x00, 0x02, 0x6D] := by
  decide
-- V28
theorem test_cmdWrite_bytes :
    after (exec (.cmdWrite 0x3FF0 [0, 1, 2, 3, 4, 5, 6, 7, 8, 9, 10, 11, 12, 13, 14, 15]) base) State.txFrame =
      some [0x5A, 0x02, 0xF0, 0x3F, 0, 0, 0, 0, 0, 1, 2, 3, 4, 5, 6, 7, 8, 9, 10, 11, 12, 13, 14, 15, 0x03] := by
  decide
-- V30, over an older frame: the zero slots overwrite what stood there
theorem test_cmdEraseAll_bytes :
    after (exec .cmdEraseAll { base with txbuf := Memory.writeBytes [] 0 [9, 9, 9, 9, 9, 9, 9, 9, 9, 9] })
        (fun t => (t.txFrame, t.txbuf.read 9)) =
      some ([0x5A, 0x03, 0, 0, 0, 0, 0, 0, 0x5D], 9) := by
  decide
-- V33
theorem test_cmdEraseSector_bytes :
    after (exec (.cmdEraseSector 0x0200) base) State.txFrame =
      some [0x5A, 0x04, 0x00, 0x02, 0x00, 0x00, 0x00, 0x00, 0x60] := by
  decide
-- V12, V13
theorem test_checksum_values :
    [after (exec (.checksum [0x18, 0xFF]) base) State.sumOut,
        after (exec (.checksum [0xFF, 0x01]) base) State.sumOut] = [some 0x17, some 0x00] := by
  decide
-- V14
set_option maxRecDepth 20000 in
theorem test_checksum_training :
    Codec.sum8 (Codec.assetBytes tp .training) = 0x50 := by decide
theorem test_checksumStamp_writes :
    after (exec (.checksumStamp 8) { base with txbuf := Memory.writeBytes [] 0 [0x5A, 3] })
        (fun t => (t.txbuf.read 8, t.txlen)) = some (0x5D, 9) := by
  decide
-- V16
theorem test_checksumValidate_passes :
    after (exec (.checksumValidate 9) (collected [0x5A, 0, 0, 0, 0, 0, 0, 0, 0x5A] (busyAt .erase (.er .await))))
        (fun t => (t.failed, t.step)) = some (false, SeqStep.er .await) := by
  decide
theorem test_checksumValidate_fails :
    after (exec (.checksumValidate 9) (collected [0x5A, 0, 0, 0, 0, 0, 0, 0, 0x5B] (busyAt .erase (.er .await))))
        (fun t => (t.err, t.cresult)) = some (0x793, CResult.fail .badChecksum) := by
  decide

/-! ## What the Peer sends -/

-- V20a
theorem test_rspRead_bytes :
    after (exec (.rspRead 0x1000 [0x42]) { base with rxq := [7] }) State.rxq =
      some [7, 0x5A, 0x00, 0x00, 0x10, 0x00, 0x00, 0x01, 0x00, 0x42, 0xAD] := by
  decide
-- V20b
theorem test_rspAck9_bytes :
    after (exec (.rspAck9 0 0 0 0 0 0) base) State.rxq = some [0x5A, 0, 0, 0, 0, 0, 0, 0, 0x5A] := by
  decide
theorem test_hsAck_byte : after (exec .hsAck base) State.rxq = some [0x11] := by decide
theorem test_genAck_byte : after (exec .genAck { base with rxq := [9] }) State.rxq = some [9, 0x01] := by
  decide
theorem test_execStream_bytes :
    after (exec (.execStream [1, 2, 3]) { base with rxq := [9] }) State.rxq = some [9, 1, 2, 3] := by decide

/-! ## Transmission -/

set_option maxRecDepth 20000 in
theorem test_hsTraining_sends :
    after (exec .hsTraining { base with ans := { good with tx := .count 96 } })
        (fun t => (t.txcalls, t.txwire.take 3, t.txwire.length)) = some (1, [0x18, 0xFF, 0x18], 96) := by
  decide
theorem test_announceCmd_sends :
    after (exec .announceCmd { base with ans := { good with tx := .count 1 } }) State.txwire = some [0xA1] := by
  decide
theorem test_loaderBin_short :
    after (exec .loaderBin { busyAt .read (.ld .uploadTx) with ans := { good with tx := .count 1 } })
        (fun t => (t.txwire, t.err, t.step)) = some ([0xB1], 0x351, SeqStep.td .close) := by
  decide
theorem test_executeCmd_err :
    after (exec .executeCmd { busyAt .read (.ld .execTx) with ans := { good with tx := .err } })
        (fun t => (t.txcalls, t.err)) = some (4, 0x261) := by
  decide
-- V62
theorem test_txwrite_short :
    after (exec (.txwrite .frame) { busyAt .erase (.er .tx) with txlen := 9, ans := { good with tx := .count 5 } })
        (fun t => (t.txcalls, t.err, t.txwire.length)) = some (5, 0x391, 5) := by
  decide
theorem test_txwrite_frame :
    after (exec (.txwrite .frame)
        { busyAt .erase (.er .tx) with txlen := 9, txbuf := Memory.writeBytes [] 0 [0x5A, 3, 0, 0, 0, 0, 0, 0, 0x5D] })
        (fun t => (t.failed, t.txwire)) = some (false, [0x5A, 3, 0, 0, 0, 0, 0, 0, 0x5D]) := by
  decide

/-! ## The other calls -/

theorem test_openPort_ok :
    after (exec .openPort { busyAt .read .openPort with portOpen := false, rxq := [1, 2] })
        (fun t => (t.portOpen, t.rxq, t.step)) = some (true, [], SeqStep.hs .assert) := by
  decide
-- V56
theorem test_openPort_err :
    after (exec .openPort
        { busyAt .read .openPort with portOpen := false, ans := { good with openOk := false } })
        (fun t => (t.portOpen, t.err, t.step)) = some (false, 0x121, SeqStep.td .close) := by
  decide
theorem test_poll_takes_head :
    after (exec .poll { base with ans := good, rxq := [5, 6] }) (fun t => (t.rxq, t.hist)) =
      some ([6], [Event.poll (.byte 5)]) := by
  decide
theorem test_flush_empties :
    after (exec .flush { base with rxq := [5, 6] }) (fun t => (t.rxq, t.hist)) = some ([], [Event.flush]) := by
  decide
theorem test_ctlAssert_sets :
    after (exec .ctlAssert base) (fun t => (t.ctlAsserted, t.hist)) = some (true, [Event.ctlAssert]) := by decide
theorem test_ctlRelease_clears :
    after (exec .ctlRelease { base with ctlAsserted := true }) State.ctlAsserted = some false := by decide
-- V63
theorem test_close_err_not_escalated :
    after (exec .close { busyAt .read (.td .close) with ans := { good with closeOk := false } })
        (fun t => (t.portOpen, t.err, t.hist)) = some (false, 0, [Event.close false]) := by
  decide
theorem test_srcRead_records :
    after (exec .srcRead { base with ans := good }) State.hist = some [Event.srcRead (.byte 0xDE)] := by decide
theorem test_sinkWrite_payload :
    after (exec .sinkWrite
        (collected [0x5A, 0, 0, 0x10, 0, 0, 1, 0, 0x42, 0xAD] { busyAt .read (.rd .commit) with chunkLen := 1 }))
        State.sink = some [0x42] := by
  decide
-- V57
theorem test_sinkWrite_fails :
    after (exec .sinkWrite
        { busyAt .read (.rd .commit) with chunkLen := 1, ans := { good with sinkOk := false } })
        (fun t => (t.err, t.chunks)) = some (0x375, 0) := by
  decide
theorem test_streamClose_once :
    after (exec .streamClose { base with streamOpen := true }) (fun t => (t.streamOpen, t.hist)) =
      some (false, [Event.streamClose]) := by
  decide
theorem test_wait_holds_until_elapsed :
    [after (exec (.wait .final) { base with waiting := true, now := 2 }) State.waiting,
        after (exec (.wait .final) { base with waiting := true, now := 3 }) State.waiting] =
      [some true, some false] := by
  decide

/-! ## The collector -/

-- V17a, V17e: a byte in time or late, as long as no NoData poll came first
theorem test_awaitEq_success :
    after (exec .awaitEq { awaiting .read (.hs .await) .eq .read [0x11] with now := 12 })
        (fun t => (t.cresult, t.step)) = some (CResult.success, SeqStep.hs .settle) := by
  decide
-- V17b
theorem test_awaitEq_wrongByte :
    after (exec .awaitEq (awaiting .read (.hs .await) .eq .read [0x18, 0x11]))
        (fun t => (t.err, t.rxq)) = some (0x133, [0x11]) := by
  decide
-- V18b, and V54's ERR
theorem test_awaitAck_nack :
    after (exec .awaitAck (awaiting .read (.ld .uploadAwait) .ack .read [0x00])) State.err = some 0x253 := by
  decide
theorem test_awaitAck_success :
    after (exec .awaitAck (awaiting .read (.ld .uploadAwait) .ack .read [0x01])) State.step =
      some (SeqStep.ld .preExec) := by
  decide
-- V19a, V19b
theorem test_awaitCount_eleventh :
    after (exec .awaitCount { awaiting .read (.ld .execAwait) .count .read [0xEE, 0x77] with cidx := 10 })
        (fun t => (t.rxq, t.session, t.step)) =
      some ([0x77], Session.loaderInstalled, SeqStep.ld .final) := by
  decide
-- V19c
theorem test_awaitCount_timeout :
    after (exec .awaitCount
        { awaiting .read (.ld .execAwait) .count .read [] with cidx := 10, now := 7, ans := quiet })
        State.err = some 0x362 := by
  decide
-- V20e
theorem test_awaitFrame_badLength :
    after (exec .awaitFrame
        (collected [0x5A, 0, 0, 0, 0, 0, 1]
          { awaiting .read (.rd .await) .frame .read [0x02] with chunkLen := 0x200 }))
        State.err = some 0x573 := by
  decide
-- V20b
theorem test_awaitFrame_success :
    after (exec .awaitFrame
        (collected [0x5A, 0, 0, 0, 0, 0, 0, 0] (awaiting .erase (.er .await) .frame .ack9 [0x5A])))
        (fun t => (t.cresult, t.step)) = some (CResult.success, SeqStep.er .commit) := by
  decide

/-! ## The sequencer -/

-- V37, V38
theorem test_seqRange_region :
    [after (exec .seqRange { busyAt .read .range with addr0 := 0x3F00, len0 := 0x100 }) State.step,
        after (exec .seqRange { busyAt .read .range with addr0 := 0x3F00, len0 := 0x101 }) State.step] =
      [some SeqStep.openPort, some (SeqStep.td .close)] := by
  decide
-- V41, V44
theorem test_seqRange_edges :
    [after (exec .seqRange { busyAt .write .range with addr0 := 0xFFFFFFFF, len0 := 1 }) State.err,
        after (exec .seqRange { busyAt .erase .range with addr0 := 0x4000 }) State.err] =
      [some 0x114, some 0x214] := by
  decide
theorem test_seqHandshake_flush :
    after (exec (.seqHandshake .flush) { busyAt .connectOnly (.hs .flush) with rxq := [1] })
        (fun t => (t.rxq, t.session, t.step)) = some ([], Session.connected, SeqStep.td .close) := by
  decide
theorem test_seqHandshake_await_entry :
    after (exec (.seqHandshake .await) (busyAt .read (.hs .await)))
        (fun t => (t.cmode, t.cexp, t.cneed, t.ctimeout)) = some (CMode.eq, 0x11, 1, 7) := by
  decide
theorem test_seqLoader_execAwait_entry :
    after (exec (.seqLoader .execAwait) (busyAt .read (.ld .execAwait))) (fun t => (t.cmode, t.cneed)) =
      some (CMode.count, 11) := by
  decide
theorem test_seqLoader_final :
    after (exec (.seqLoader .final) { busyAt .read (.ld .final) with waiting := true, now := 3 })
        (fun t => (t.session, t.step)) = some (Session.ready, SeqStep.opDispatch) := by
  decide
theorem test_seqDispatch_read :
    after (exec .seqDispatch { busyAt .read .opDispatch with addr0 := 0x1000, len0 := 0x201 })
        (fun t => (t.curAddr, t.remaining, t.session, t.step)) =
      some (0x1000, 0x201, Session.reading, SeqStep.rd .next) := by
  decide
-- P2's second chunk
theorem test_seqReadChunk_next :
    after (exec (.seqReadChunk .next) { busyAt .read (.rd .next) with curAddr := 0x1200, remaining := 1 })
        (fun t => (t.chunkLen, t.txFrame, t.step)) =
      some (1, [0x5A, 0x01, 0x00, 0x12, 0x00, 0x00, 0x01, 0x00, 0x6E], SeqStep.rd .settle) := by
  decide
theorem test_seqReadChunk_commit :
    after (exec (.seqReadChunk .commit)
        (collected [0x5A, 0, 0, 0x12, 0, 0, 1, 0, 0x42, 0xAF]
          { busyAt .read (.rd .commit) with curAddr := 0x1200, remaining := 1, chunkLen := 1, xfer := 0x200, chunks := 1 }))
        (fun t => (t.curAddr, t.remaining, t.xfer, t.chunks, t.sink)) =
      some (0x1201, 0, 0x201, 2, [0x42]) := by
  decide
theorem test_seqWriteChunk_src :
    after (exec (.seqWriteChunk .src) { busyAt .write (.wr .src) with chunkLen := 1 })
        (fun t => (t.txbuf.read 8, t.widx, t.step)) = some (0xDE, 1, SeqStep.wr .build) := by
  decide
-- V58
theorem test_seqWriteChunk_src_end :
    after (exec (.seqWriteChunk .src)
        { busyAt .write (.wr .src) with chunkLen := 1, ans := { good with src := .finished } })
        State.err = some 0x285 := by
  decide
-- P4: target 0 selects the chip erase
theorem test_seqErase_build :
    [after (exec (.seqErase .build) (busyAt .erase (.er .build))) State.txFrame,
        after (exec (.seqErase .build) { busyAt .erase (.er .build) with addr0 := 0x1000 }) State.txFrame] =
      [some [0x5A, 3, 0, 0, 0, 0, 0, 0, 0x5D], some [0x5A, 4, 0, 0x10, 0, 0, 0, 0, 0x6E]] := by
  decide
theorem test_seqErase_commit :
    after (exec (.seqErase .commit) (busyAt .erase (.er .commit))) (fun t => (t.chunks, t.xfer, t.step)) =
      some (1, 0, SeqStep.td .close) := by
  decide
theorem test_seqTeardown_close :
    after (exec (.seqTeardown .close) (busyAt .read (.td .close)))
        (fun t => (t.portOpen, t.hist, t.step)) = some (false, [Event.close true], SeqStep.td .stream) := by
  decide
-- V59, V60
theorem test_seqTeardown_finish :
    [after (exec (.seqTeardown .finish) (busyAt .read (.td .finish))) State.statusWord,
        after (exec (.seqTeardown .finish) { busyAt .read (.td .finish) with failed := true })
          State.statusWord] = [some 0x76, some 0x72] := by
  decide

-- V34, V35
theorem test_chunkSplit :
    (chunkSplit 0 1025, chunkSplit 0x1000 0x201) =
      ([(0, 512), (0x200, 512), (0x400, 1)], [(0x1000, 512), (0x1200, 1)]) := by
  decide

/-! ## Witnesses: states of a session that keep the invariant -/

/-- The first chunk of program P2 at a step: READ 0x1000, 0x201. -/
def readAt (r : RdStep) : State :=
  { busyAt .read (.rd r) with
    addr0 := 0x1000, len0 := 0x201, curAddr := 0x1000, remaining := 0x201, chunkLen := 0x200
    txbuf := Memory.writeBytes [] 0 [0x5A, 1, 0, 0x10, 0, 0, 0, 2, 0x6D], txlen := 9 }

/-- A READ of one byte at 0x1200, its response received whole. -/
def readCommit : State :=
  collected [0x5A, 0, 0, 0x12, 0, 0, 1, 0, 0x42, 0xAF]
    { busyAt .read (.rd .commit) with
      addr0 := 0x1200, len0 := 1, curAddr := 0x1200, remaining := 1, chunkLen := 1 }

/-- A WRITE of two bytes (V27) at the step that sends it. -/
def writeTx : State :=
  { busyAt .write (.wr .tx) with
    addr0 := 0x3FF0, len0 := 2, curAddr := 0x3FF0, remaining := 2, chunkLen := 2, widx := 2
    txbuf := Memory.writeBytes [] 0 [0x5A, 2, 0xF0, 0x3F, 0, 0, 0, 0, 0xDE, 0xAD, 0x16], txlen := 11 }

/-- The same WRITE with its response received whole. -/
def writeCommit : State :=
  collected [0x5A, 0, 0, 0, 0, 0, 0, 0, 0x5A] { writeTx with step := .wr .commit, txcalls := 5 }

/-- A chip erase at a step (P4). -/
def eraseAt (e : ErStep) : State :=
  { busyAt .erase (.er e) with
    txbuf := Memory.writeBytes [] 0 [0x5A, 3, 0, 0, 0, 0, 0, 0, 0x5D], txlen := 9 }

/-- A chip erase whose response has arrived whole. -/
def eraseCommit : State := collected [0x5A, 0, 0, 0, 0, 0, 0, 0, 0x5A] (eraseAt .commit)

/-- The handshake of program P6 at the await, no byte there yet. -/
def handshakeAwait : State := awaiting .connectOnly (.hs .await) .eq .read []

/-- Program P6 after its timeout, at the first step of teardown. -/
def failedClose : State :=
  { busyAt .connectOnly (.td .close) with failed := true, err := 0x132, txcalls := 1 }

theorem inv_readTx : Inv (readAt .tx) := by
  constructor <;>
    simp +decide [BuffersOk, FlagsOk, FailureOk, legalErr, ResourcesOk, CollectorOk, RegionOk, StageOk,
      SessionOk, TransferOk, ImageOk, CountsOk, SuccessOk, FrameOk, State.builtFrame, SinkOk, ClockOk,
      RejectedOk, ResponseOk, readAt, busyAt, base, State.resetWith, SeqStep.sent, SeqStep.sessionAt]

theorem inv_readCommit : Inv readCommit := by
  constructor <;>
    simp +decide [BuffersOk, FlagsOk, FailureOk, legalErr, ResourcesOk, CollectorOk, RegionOk, StageOk,
      SessionOk, TransferOk, ImageOk, CountsOk, SuccessOk, FrameOk, State.builtFrame, SinkOk, ClockOk,
      RejectedOk, ResponseOk, State.rxFrameOk, State.rxHeaderOk, readCommit, collected, busyAt, base,
      State.resetWith, SeqStep.sent, SeqStep.sessionAt]

theorem inv_writeTx : Inv writeTx := by
  constructor <;>
    simp +decide [BuffersOk, FlagsOk, FailureOk, legalErr, ResourcesOk, CollectorOk, RegionOk, StageOk,
      SessionOk, TransferOk, ImageOk, CountsOk, SuccessOk, FrameOk, State.builtFrame, SinkOk, ClockOk,
      RejectedOk, ResponseOk, writeTx, busyAt, base, State.resetWith, SeqStep.sent, SeqStep.sessionAt]

theorem inv_writeCommit : Inv writeCommit := by
  constructor <;>
    simp +decide [BuffersOk, FlagsOk, FailureOk, legalErr, ResourcesOk, CollectorOk, RegionOk, StageOk,
      SessionOk, TransferOk, ImageOk, CountsOk, SuccessOk, FrameOk, State.builtFrame, SinkOk, ClockOk,
      RejectedOk, ResponseOk, State.rxFrameOk, State.rxHeaderOk, writeCommit, writeTx, collected, busyAt, base,
      State.resetWith, SeqStep.sent, SeqStep.sessionAt]

theorem inv_eraseTx : Inv (eraseAt .tx) := by
  constructor <;>
    simp +decide [BuffersOk, FlagsOk, FailureOk, legalErr, ResourcesOk, CollectorOk, RegionOk, StageOk,
      SessionOk, TransferOk, ImageOk, CountsOk, SuccessOk, FrameOk, State.builtFrame, SinkOk, ClockOk,
      RejectedOk, ResponseOk, eraseAt, busyAt, base, State.resetWith, SeqStep.sent, SeqStep.sessionAt]

theorem inv_eraseCommit : Inv eraseCommit := by
  constructor <;>
    simp +decide [BuffersOk, FlagsOk, FailureOk, legalErr, ResourcesOk, CollectorOk, RegionOk, StageOk,
      SessionOk, TransferOk, ImageOk, CountsOk, SuccessOk, FrameOk, State.builtFrame, SinkOk, ClockOk,
      RejectedOk, ResponseOk, State.rxFrameOk, State.rxHeaderOk, eraseCommit, eraseAt, collected, busyAt, base,
      State.resetWith, SeqStep.sent, SeqStep.sessionAt]

theorem inv_handshakeAwait : Inv handshakeAwait := by
  constructor <;>
    simp +decide [BuffersOk, FlagsOk, FailureOk, legalErr, ResourcesOk, CollectorOk, RegionOk, StageOk,
      SessionOk, TransferOk, ImageOk, CountsOk, SuccessOk, FrameOk, State.builtFrame, SinkOk, ClockOk,
      RejectedOk, ResponseOk, handshakeAwait, awaiting, busyAt, base, State.resetWith, SeqStep.sent,
      SeqStep.sessionAt, CMode.need]

theorem inv_failedClose : Inv failedClose := by
  constructor <;>
    simp +decide [BuffersOk, FlagsOk, FailureOk, legalErr, ResourcesOk, CollectorOk, RegionOk, StageOk,
      SessionOk, TransferOk, ImageOk, CountsOk, SuccessOk, FrameOk, State.builtFrame, SinkOk, ClockOk,
      RejectedOk, ResponseOk, failedClose, busyAt, base, State.resetWith]

/-- An await of each other kind, no byte there yet: an answer, the execute stream, and the two responses. -/
def announceAwait : State := awaiting .erase (.ld .announceAwait) .ack .read []

def execAwait : State := awaiting .erase (.ld .execAwait) .count .read []

def eraseAwait : State :=
  { eraseAt .await with cmode := .frame, cshape := .ack9, cneed := 9, ctimeout := 7 }

def readAwait : State :=
  { readAt .await with cmode := .frame, cshape := .read, cneed := 8, ctimeout := 7 }

theorem inv_announceAwait : Inv announceAwait := by
  constructor <;>
    simp +decide [BuffersOk, FlagsOk, FailureOk, legalErr, ResourcesOk, CollectorOk, RegionOk, StageOk,
      SessionOk, TransferOk, ImageOk, CountsOk, SuccessOk, FrameOk, State.builtFrame, SinkOk, ClockOk,
      RejectedOk, ResponseOk, State.rxHeaderOk, announceAwait, awaiting, busyAt, base, State.resetWith, SeqStep.sent,
      SeqStep.sessionAt, CMode.need]

theorem inv_execAwait : Inv execAwait := by
  constructor <;>
    simp +decide [BuffersOk, FlagsOk, FailureOk, legalErr, ResourcesOk, CollectorOk, RegionOk, StageOk,
      SessionOk, TransferOk, ImageOk, CountsOk, SuccessOk, FrameOk, State.builtFrame, SinkOk, ClockOk,
      RejectedOk, ResponseOk, State.rxHeaderOk, execAwait, awaiting, busyAt, base, State.resetWith, SeqStep.sent,
      SeqStep.sessionAt, CMode.need]

theorem inv_eraseAwait : Inv eraseAwait := by
  constructor <;>
    simp +decide [BuffersOk, FlagsOk, FailureOk, legalErr, ResourcesOk, CollectorOk, RegionOk, StageOk,
      SessionOk, TransferOk, ImageOk, CountsOk, SuccessOk, FrameOk, State.builtFrame, SinkOk, ClockOk,
      RejectedOk, ResponseOk, State.rxHeaderOk, eraseAwait, eraseAt, busyAt, base, State.resetWith,
      SeqStep.sent, SeqStep.sessionAt]

theorem inv_readAwait : Inv readAwait := by
  constructor <;>
    simp +decide [BuffersOk, FlagsOk, FailureOk, legalErr, ResourcesOk, CollectorOk, RegionOk, StageOk,
      SessionOk, TransferOk, ImageOk, CountsOk, SuccessOk, FrameOk, State.builtFrame, SinkOk, ClockOk,
      RejectedOk, ResponseOk, State.rxHeaderOk, readAwait, readAt, busyAt, base, State.resetWith,
      SeqStep.sent, SeqStep.sessionAt]

/-- A session that ended well. -/
def endedWell (op : Op) (len calls chunks : Nat) (sink : List Byte) : State :=
  { base with
    done := true, ok := true, session := .closed, op := op, len0 := BitVec.ofNat 32 len
    xfer := BitVec.ofNat 32 len, txcalls := BitVec.ofNat 32 calls, chunks := BitVec.ofNat 32 chunks
    sink := sink }

/-- A CONNECT_ONLY, an ERASE, READs of no byte and of one, and a WRITE of two chunks. -/
theorem inv_endedWell : Inv (endedWell .connectOnly 0 1 0 []) ∧ Inv (endedWell .erase 0 5 1 []) ∧
    Inv (endedWell .read 0 4 0 []) ∧ Inv (endedWell .read 1 5 1 [0x42]) ∧
    Inv (endedWell .write 0x201 6 2 []) := by
  refine ⟨?_, ?_, ?_, ?_, ?_⟩ <;> constructor <;>
    simp +decide [BuffersOk, FlagsOk, FailureOk, legalErr, ResourcesOk, CollectorOk, RegionOk, StageOk,
      SessionOk, TransferOk, ImageOk, CountsOk, SuccessOk, FrameOk, State.builtFrame, SinkOk, ClockOk,
      RejectedOk, ResponseOk, endedWell, base, State.resetWith]

/-- The handshake at its flush. -/
def flushing : State := busyAt .connectOnly (.hs .flush)

/-- Program P6 at its last poll: the deadline has come and no byte has. -/
def late : State := { handshakeAwait with now := 7 }

/-- Program P6 at its end. -/
def ended : State :=
  { base with done := true, failed := true, err := 0x132, txcalls := 1, session := .closed }

theorem inv_flushing : Inv flushing := by
  constructor <;>
    simp +decide [BuffersOk, FlagsOk, FailureOk, legalErr, ResourcesOk, CollectorOk, RegionOk, StageOk,
      SessionOk, TransferOk, ImageOk, CountsOk, SuccessOk, FrameOk, State.builtFrame, SinkOk, ClockOk,
      RejectedOk, ResponseOk, flushing, busyAt, base, State.resetWith, SeqStep.sent, SeqStep.sessionAt]

theorem inv_late : Inv late := by
  constructor <;>
    simp +decide [BuffersOk, FlagsOk, FailureOk, legalErr, ResourcesOk, CollectorOk, RegionOk, StageOk,
      SessionOk, TransferOk, ImageOk, CountsOk, SuccessOk, FrameOk, State.builtFrame, SinkOk, ClockOk,
      RejectedOk, ResponseOk, late, handshakeAwait, awaiting, busyAt, base, State.resetWith, SeqStep.sent,
      SeqStep.sessionAt, CMode.need]

theorem inv_ended : Inv ended := by
  constructor <;>
    simp +decide [BuffersOk, FlagsOk, FailureOk, legalErr, ResourcesOk, CollectorOk, RegionOk, StageOk,
      SessionOk, TransferOk, ImageOk, CountsOk, SuccessOk, FrameOk, State.builtFrame, SinkOk, ClockOk,
      RejectedOk, ResponseOk, ended, base, State.resetWith]

/-! ## Witnesses: what each statement's hypotheses ask for -/

/-- A good answer of the engine's turn, as a schedule. -/
def turn : Config.Turn := .engine good

/-- A state whose schedule starts with a move. -/
def withTurn (m : Config.Turn) (s : State) : State := { s with inputs := [m] }

theorem witness_StepRunsDecodedInstruction :
    (withTurn turn (busyAt .read .range)).nextTurn = (turn, busyAt .read .range) ∧
      base.inputs = [] ∧ (busyAt .read .range).step ≠ .idle ∧
      decode tp (.stage .range) = .ok .seqRange ∧
      (withTurn (.hostWrite 4 1) { base with reqOp := 3 }).nextTurn =
        (.hostWrite 4 1, { base with reqOp := 3 }) ∧
      (1 : Word).getLsbD 0 = true ∧ decode tp (.request 3) = .ok .reqErase ∧
      (withTurn (.peer [0x11]) handshakeAwait).nextTurn = (.peer [0x11], handshakeAwait) ∧
      decode tp (handshakeAwait.receivedCode [0x11]) = .ok .hsAck :=
  ⟨rfl, rfl, by decide, rfl, rfl, by decide, rfl, rfl, rfl⟩

theorem witness_StepWithoutInstruction :
    (withTurn turn base).nextTurn = (turn, base) ∧ base.step = .idle ∧
      decode tp (base.receivedCode [0x22]) = .error .notAnAck ∧
      (withTurn .clock base).nextTurn = (.clock, base) ∧
      (withTurn (.hostRead 12) base).nextTurn = (.hostRead 12, base) :=
  ⟨rfl, rfl, rfl, rfl, rfl⟩

theorem witness_WrittenWordsDecode :
    tp.raw.marker = 0x5A ∧ tp.raw.subopRead = 1 ∧ tp.raw.subopWrite = 2 ∧ tp.raw.subopEraseAll = 3 ∧
      tp.raw.subopEraseSector = 4 := by
  decide

theorem witness_DecodeEncode :
    (Instr.cmdRead 0x3E00 0x200).wf = true ∧ (Instr.cmdWrite 0xFFFFFFFF [0]).wf = true ∧
      (Instr.cmdEraseSector 0x3FFF).wf = true ∧ (Instr.rspRead 0 []).wf = true ∧
      (Instr.execStream (List.replicate 11 0)).wf = true ∧ (Instr.checksumStamp 520).wf = true := by
  decide

theorem witness_EncodeDecode :
    decode tp (.command [0x5A, 0x03, 0, 0, 0, 0, 0, 0, 0x5D]) = .ok .cmdEraseAll ∧
      decode tp (.response .ack9 [0x5A, 0, 0, 0, 0, 0, 0, 0, 0x5A]) = .ok (.rspAck9 0 0 0 0 0 0) ∧
      decode tp (.reply [0x11]) = .ok .hsAck ∧
      decode tp (.stream [1, 2, 3, 4, 5, 6, 7, 8, 9, 10, 11]) =
        .ok (.execStream [1, 2, 3, 4, 5, 6, 7, 8, 9, 10, 11]) ∧
      decode tp (.asset .loader [0xB1, 0xB2]) = .ok .loaderBin ∧ decode tp (.mode 4) = .ok .awaitFrame ∧
      decode tp (.sum (.validate 9)) = .ok (.checksumValidate 9) ∧
      decode tp (.call .flush) = .ok .flush ∧ decode tp (.stage (.td .close)) = .ok (.seqTeardown .close) ∧
      decode tp (.stage .openPort) = .ok .openPort ∧ decode tp .start = .ok .seqStart ∧
      decode tp (.request 0xFFFFFFFE) = .ok .reqWrite :=
  ⟨rfl, rfl, rfl, rfl, rfl, rfl, rfl, rfl, rfl, rfl, rfl, rfl⟩

theorem witness_FramesCarryMarkerAndTrailer :
    encode tp .cmdEraseAll = .command [0x5A, 3, 0, 0, 0, 0, 0, 0, 0x5D] ∧
      encode tp (.rspAck9 0 0 0 0 0 0) = .response .ack9 [0x5A, 0, 0, 0, 0, 0, 0, 0, 0x5A] :=
  ⟨rfl, rfl⟩

theorem witness_StampWritesTrailer : (0 : Nat) ≤ 520 ∧ (520 : Nat) ≤ 520 := by decide

/-- A whole response that passes, and one whose trailer does not match (V16, V20g). -/
theorem witness_ValidateChecksTrailer :
    byteSum (eraseCommit.rxbuf.readBytes 0 8) % 256 = (eraseCommit.rxbuf.read 8).toNat ∧
      byteSum ((collected [0x5A, 0, 0, 0, 0, 0, 0, 0, 0x5B] base).rxbuf.readBytes 0 8) % 256 ≠
        ((collected [0x5A, 0, 0, 0, 0, 0, 0, 0, 0x5B] base).rxbuf.read 8).toNat ∧
      byteSum (base.rxbuf.readBytes 0 520) % 256 = (base.rxbuf.read 520).toNat := by
  refine ⟨by decide, by decide, ?_⟩
  have h : ∀ n a, Memory.readBytes [] a n = List.replicate n 0 := by
    intro n
    induction n with
    | zero => intro a; rfl
    | succ n ih => intro a; rw [Memory.readBytes, ih]; rfl
  have hz : ∀ n, byteSum (List.replicate n 0) = 0 := by
    intro n
    simp [byteSum]
  have he : base.rxbuf = [] := rfl
  rw [he, h, hz]
  rfl

theorem witness_ChecksumDetectionLaws :
    byteSum (eraseCommit.rxbuf.readBytes 0 8) % 256 = (eraseCommit.rxbuf.read 8).toNat ∧
      (0x5B : Byte) ≠ eraseCommit.rxbuf.read 8 ∧ (0x01 : Byte) ≠ eraseCommit.rxbuf.read 0 ∧
      (collected [0, 0, 0, 0, 0, 0, 0, 0x5A, 0x5A] base).rxbuf.read 8 = eraseCommit.rxbuf.read 8 ∧
      ((collected [0, 0, 0, 0, 0, 0, 0, 0x5A, 0x5A] base).rxbuf.readBytes 0 8).Perm
        (eraseCommit.rxbuf.readBytes 0 8) ∧
      (collected [0x5B, 0xFF, 0, 0, 0, 0, 0, 0, 0x5A] base).rxbuf.read 8 = eraseCommit.rxbuf.read 8 ∧
      byteSum ((collected [0x5B, 0xFF, 0, 0, 0, 0, 0, 0, 0x5A] base).rxbuf.readBytes 0 8) % 256 =
        byteSum (eraseCommit.rxbuf.readBytes 0 8) % 256 := by
  exact ⟨by decide, by decide, by decide, by decide, by decide, by decide, by decide⟩

theorem witness_BuildWriteWritesFrame :
    ([] : List Byte).length ≤ 0x200 ∧ ([0xDE, 0xAD] : List Byte).length ≤ 0x200 ∧
      (List.replicate 512 (0xFF : Byte)).length ≤ 0x200 :=
  ⟨by decide, by decide, by rw [List.length_replicate]⟩

theorem witness_PeerBytesJoinQueue :
    ([] : List Byte).length ≤ 0x200 ∧ (List.replicate 512 (0xFF : Byte)).length ≤ 0x200 :=
  ⟨by decide, by rw [List.length_replicate]⟩

theorem witness_TrainingPatternAlternates : 0 < 96 ∧ 95 < 96 := by decide

/-- The four constant tables accepted whole, and frames of 1, 9 and 521 bytes. -/
theorem witness_AcceptedTransmission :
    ((TxSrc.training, 96) :: (.announce, 1) :: (.loader, 2) :: [(.execute, 1)]).all
        (fun p => decide ((base.txBytes p.1).length = p.2)) = true ∧
      (eraseAt .tx).ans.tx = .count (eraseAt .tx).txlen ∧ 1 ≤ (eraseAt .tx).txlen ∧
      (eraseAt .tx).txlen ≤ 521 ∧ (1 : Nat) ≤ 521 ∧ (521 : Nat) ≤ 521 := by
  decide

/-- A frame: no byte accepted, all but one accepted, an error, and a count above the length. The training
pattern of a first session, when `txlen` is still 0: the same. -/
theorem witness_FailedTransmission :
    ((busyAt .connectOnly (.hs .train)).txlen = 0 ∧
      ((busyAt .connectOnly (.hs .train)).txBytes .training).length = 96 ∧ (0 : Nat) < 96 ∧ (95 : Nat) < 96 ∧
      (96 : Nat) < 97 ∧
      ({ busyAt .connectOnly (.hs .train) with ans := { good with tx := .count 95 } } : State).ans.tx =
        .count 95 ∧
      ({ busyAt .connectOnly (.hs .train) with ans := { good with tx := .err } } : State).ans.tx = .err ∧
      ({ busyAt .connectOnly (.hs .train) with ans := { good with tx := .count 97 } } : State).ans.tx =
        .count 97) ∧
    1 ≤ (eraseAt .tx).txlen ∧ (eraseAt .tx).txlen ≤ 521 ∧ ((eraseAt .tx).txBytes .frame).length = 9 ∧
      (0 : Nat) < 9 ∧ (8 : Nat) < 9 ∧ (9 : Nat) < 10 ∧
      ({ eraseAt .tx with ans := { good with tx := .count 8 } } : State).ans.tx = .count 8 ∧
      ({ eraseAt .tx with ans := { good with tx := .err } } : State).ans.tx = .err ∧
      ({ eraseAt .tx with ans := { good with tx := .count 10 } } : State).ans.tx = .count 10 := by
  decide

theorem witness_OpenAnswers :
    (busyAt .read .openPort).step = .openPort ∧ (busyAt .read .openPort).ans.openOk = true ∧
      ({ busyAt .read .openPort with ans := { good with openOk := false } } : State).ans.openOk = false := by
  decide

theorem witness_PollAnswers :
    (awaiting .read (.hs .await) .eq .read [0x11]).ans.poll = .byte ∧
      (awaiting .read (.hs .await) .eq .read [0x11]).rxq = 0x11 :: [] ∧
      ({ base with ans := quiet } : State).ans.poll = .noData ∧ base.rxq = [] ∧ base.ans.poll = .err ∧
      ({ awaiting .read (.hs .await) .eq .read [0x11] with ans := quiet } : State).rxq ≠ [] := by
  decide

theorem witness_CloseCalls :
    (busyAt .read (.td .close)).portOpen = true ∧ base.portOpen = false ∧
      (busyAt .read (.td .stream)).streamOpen = true ∧ base.streamOpen = false := by
  decide

/-- Payloads of one byte and of 0x200 bytes, with a sink that takes and one that fails. -/
theorem witness_StreamCalls :
    readCommit.chunkLen.toNat = 1 ∧ (readAt .commit).chunkLen.toNat = 0x200 ∧ readCommit.ans.sinkOk = true ∧
      ({ readCommit with ans := { good with sinkOk := false } } : State).ans.sinkOk = false := by
  decide

/-- A wait not begun, one a tick before its end, one at its end, and one of no ticks. -/
theorem witness_WaitHoldsUntilElapsed :
    base.waiting = false ∧
      (2 - ({ base with waiting := true, now := 2 } : State).t0 < tp.raw.tFinal) ∧
      (tp.raw.tFinal ≤ 3 - ({ base with waiting := true, now := 3 } : State).t0) ∧
      base.pdelay.toNat ≤ base.now - base.t0 := by
  decide

theorem witness_AwaitEntry :
    base.cmode = .idle ∧ base.cmode ≠ .eq ∧ base.cmode ≠ .ack ∧ base.cmode ≠ .count ∧
      base.cmode ≠ .frame := by
  decide

theorem witness_AwaitOneByteDecides :
    (awaiting .read (.hs .await) .eq .read [0x11]).cmode = .eq ∧
      (awaiting .read (.hs .await) .eq .read [0x11]).step = .hs .await ∧
      (0x11 : Byte) = (awaiting .read (.hs .await) .eq .read [0x11]).cexp ∧
      (0x12 : Byte) ≠ (awaiting .read (.hs .await) .eq .read [0x12]).cexp ∧
      (awaiting .read (.ld .announceAwait) .ack .read [0x01]).cmode = .ack ∧
      (awaiting .read (.ld .uploadAwait) .ack .read [0x00]).step = .ld .uploadAwait ∧
      (awaiting .read (.ld .uploadAwait) .ack .read [0x00]).rxq = 0x00 :: [] := by
  decide

/-- The first, the tenth and the eleventh byte of the execute stream. -/
theorem witness_AwaitCountCounts :
    (awaiting .read (.ld .execAwait) .count .read [7]).cmode = .count ∧
      (awaiting .read (.ld .execAwait) .count .read [7]).step = .ld .execAwait ∧
      (awaiting .read (.ld .execAwait) .count .read [7]).ans.poll = .byte ∧
      (awaiting .read (.ld .execAwait) .count .read [7]).rxq = 7 :: [] ∧
      0 + 1 ≠ (awaiting .read (.ld .execAwait) .count .read [7]).cneed ∧
      9 + 1 ≠ (awaiting .read (.ld .execAwait) .count .read [7]).cneed ∧
      10 + 1 = (awaiting .read (.ld .execAwait) .count .read [7]).cneed := by
  decide

/-- The first byte, the byte that completes a length field, and the last byte of a frame. -/
theorem witness_AwaitFrameChecksInByteOrder :
    (awaiting .read (.rd .await) .frame .read [0x5A]).cmode = .frame ∧
      (awaiting .read (.rd .await) .frame .read [0x5A]).cidx < 521 ∧
      (collected [0x5A, 0, 0, 0, 0, 0, 1] (awaiting .read (.rd .await) .frame .read [0x02])).cidx = 7 ∧
      (collected [0x5A, 0, 0, 0, 0, 0, 0, 0] (awaiting .erase (.er .await) .frame .ack9 [0x5A])).cidx + 1 =
        (collected [0x5A, 0, 0, 0, 0, 0, 0, 0] (awaiting .erase (.er .await) .frame .ack9 [0x5A])).cneed ∧
      (awaiting .write (.wr .await) .frame .ack9 [0x5A]).step = .wr .await := by
  decide

/-- An error, NoData a tick before the deadline and at it, and the answers that are not legal. -/
theorem witness_CollectWithoutByte :
    handshakeAwait.cmode = .eq ∧ handshakeAwait.step = .hs .await ∧
      ({ handshakeAwait with ans := { good with poll := .err } } : State).ans.poll = .err ∧
      ({ handshakeAwait with ans := quiet } : State).ans.poll = .noData ∧ handshakeAwait.rxq = [] ∧
      6 - handshakeAwait.t0 < handshakeAwait.ctimeout ∧ handshakeAwait.ctimeout ≤ 7 - handshakeAwait.t0 ∧
      (awaiting .connectOnly (.hs .await) .eq .read [1]).rxq ≠ [] ∧ handshakeAwait.ans.poll = .byte := by
  decide

/-- What the bounded clause asks of a state and of the answers to its polls. -/
def AwaitBounded (s : State) (as : List Config.Answers) : Prop :=
  Inv s ∧ s.cmode ≠ .idle ∧ (∀ a ∈ as, a.poll = .byte) ∧ s.cidx + as.length = s.awaitLen ∧
    as.length ≤ s.rxq.length ∧ ∃ ms, s.inputs = as.map .engine ++ ms

/-- `s` with `n` bytes queued and `n` polls that take them scheduled. -/
def polled (n : Nat) (s : State) : State :=
  { s with rxq := List.replicate n 0, inputs := (List.replicate n good).map .engine ++ [] }

theorem awaitBounded_polled {s : State} (n : Nat) (h : Inv s) (hc : s.cmode ≠ .idle)
    (hn : s.cidx + n = s.awaitLen) : AwaitBounded (polled n s) (List.replicate n good) :=
  ⟨h.of_unread rfl, hc, fun a ha => by rw [List.eq_of_mem_replicate ha]; rfl,
    by rw [List.length_replicate]; exact hn, by simp [polled], [], rfl⟩

/-- A handshake await whose first poll errs, then teardown, then the clock and the idle engine in turn. -/
def fairMoves : Nat → Config.Turn
  | 0 => .engine { good with poll := .err }
  | n + 1 => if n < 3 then turn else if n % 2 = 0 then .clock else turn

def fairRun : Nat → State
  | 0 => handshakeAwait
  | n + 1 =>
    match runTurn (fairMoves n) (fairRun n) with
    | .next t => t
    | .fault _ => fairRun n
    | .refused _ => fairRun n

theorem fairRun_ended (n : Nat) :
    (fairRun (n + 4)).step = .idle ∧
      runTurn (fairMoves (n + 4)) (fairRun (n + 4)) = .next (fairRun (n + 5)) := by
  have key : ∀ k, (fairRun (k + 4)).step = .idle →
      (fairRun (k + 5)).step = .idle ∧
        runTurn (fairMoves (k + 4)) (fairRun (k + 4)) = .next (fairRun (k + 5)) := by
    intro k hk
    have hm : fairMoves (k + 4) = .clock ∨ fairMoves (k + 4) = turn := by
      simp only [fairMoves, show ¬k + 3 < 3 by omega, if_false]
      split
      · exact .inl rfl
      · exact .inr rfl
    have hs : fairRun (k + 5) =
        match runTurn (fairMoves (k + 4)) (fairRun (k + 4)) with
        | .next t => t
        | .fault _ => fairRun (k + 4)
        | .refused _ => fairRun (k + 4) := rfl
    rcases hm with e | e
    · rw [e] at hs ⊢
      rw [hs]
      exact ⟨hk, rfl⟩
    · rw [e] at hs ⊢
      have ht : runTurn turn (fairRun (k + 4)) = .next { fairRun (k + 4) with ans := good } := by
        rw [show runTurn turn (fairRun (k + 4)) = engineStep { fairRun (k + 4) with ans := good } from rfl,
          engineStep_eq]
        simp only [hk]
      rw [ht] at hs ⊢
      rw [hs]
      exact ⟨hk, rfl⟩
  induction n with
  | zero => exact ⟨rfl, (key 0 rfl).2⟩
  | succ n ih => exact ⟨(key n ih.1).1, (key (n + 1) (key n ih.1).1).2⟩

theorem execution_fairRun : Execution fairMoves fairRun
  | 0 | 1 | 2 | 3 => rfl
  | n + 4 => (fairRun_ended n).2

theorem clockFair_fairMoves : ClockFair fairMoves := fun n =>
  ⟨2 * n + 5, by omega, by simp only [fairMoves, show ¬2 * n + 4 < 3 by omega, if_false]; rw [if_pos (by omega)]⟩

theorem engineFair_fairMoves : EngineFair fairMoves := fun n =>
  ⟨2 * n + 6, good, by omega, by
    simp only [fairMoves, show ¬2 * n + 5 < 3 by omega, if_false]; rw [if_neg (by omega)]; rfl⟩

/-- Each mode at its bound (1, 1, 11, 9 and 521 bytes), and a fair execution that begins in an await. -/
theorem witness_AwaitEndsInBoundedPolls :
    (AwaitBounded (polled 1 handshakeAwait) (List.replicate 1 good) ∧
      AwaitBounded (polled 1 announceAwait) (List.replicate 1 good) ∧
      AwaitBounded (polled 11 execAwait) (List.replicate 11 good) ∧
      AwaitBounded (polled 9 eraseAwait) (List.replicate 9 good) ∧
      AwaitBounded (polled 521 readAwait) (List.replicate 521 good)) ∧
    Execution fairMoves fairRun ∧ ClockFair fairMoves ∧ EngineFair fairMoves ∧ Inv (fairRun 0) ∧
      (fairRun 0).cmode = .eq :=
  ⟨⟨awaitBounded_polled 1 inv_handshakeAwait (by decide) rfl,
      awaitBounded_polled 1 inv_announceAwait (by decide) rfl,
      awaitBounded_polled 11 inv_execAwait (by decide) rfl,
      awaitBounded_polled 9 inv_eraseAwait (by decide) rfl,
      awaitBounded_polled 521 inv_readAwait (by decide) rfl⟩,
    execution_fairRun, clockFair_fairMoves, engineFair_fairMoves, inv_handshakeAwait, rfl⟩

theorem witness_StartLatchesRequest :
    base.busy = false ∧ ({ base with reqOp := 3 } : State).reqOp = 3 ∧ (busyAt .read .range).busy = true := by
  decide

/-- V37 to V45: each bound from both sides. -/
theorem witness_RangeCheck :
    ((busyAt .read .range).op = .read ∨ (busyAt .read .range).op = .write) ∧
      0x4000 < (0x3F00 : Word).toNat + (0x101 : Word).toNat ∧
      (0x3F00 : Word).toNat + (0x100 : Word).toNat ≤ 0x4000 ∧
      0x4000 < (0xFFFFFFFF : Word).toNat + (1 : Word).toNat ∧ (busyAt .erase .range).op = .erase ∧
      0x4000 ≤ (0x4000 : Word).toNat ∧ (0x3FFF : Word).toNat < 0x4000 ∧
      (busyAt .connectOnly .range).op = .connectOnly := by
  decide

theorem witness_HandshakeSteps :
    (busyAt .connectOnly (.hs .flush)).op = .connectOnly ∧
      (busyAt .erase (.hs .flush)).op ≠ .connectOnly := by
  decide

theorem witness_DispatchByOperation :
    (busyAt .read .opDispatch).op = .read ∧ (busyAt .write .opDispatch).op = .write ∧
      (busyAt .erase .opDispatch).op = .erase ∧ (busyAt .connectOnly .opDispatch).op = .connectOnly := by
  decide

theorem witness_ReadChunkSteps :
    (busyAt .read (.rd .next)).remaining = 0 ∧ (readAt .next).remaining ≠ 0 ∧
      1 ≤ readCommit.chunkLen.toNat ∧ (readAt .commit).chunkLen.toNat = 0x200 ∧
      readCommit.ans.sinkOk = true ∧
      ({ readCommit with ans := { good with sinkOk := false } } : State).ans.sinkOk = false := by
  decide

theorem witness_WriteChunkSteps :
    (busyAt .write (.wr .next)).remaining = 0 ∧ writeTx.remaining ≠ 0 ∧ writeTx.ans.src = .byte 0xDE ∧
      writeTx.widx < 0x200 ∧ (0x1FF : Nat) < 0x200 ∧
      ({ writeTx with ans := { good with src := .finished } } : State).ans.src = .finished ∧
      ({ writeTx with ans := { good with src := .err } } : State).ans.src = .err ∧
      writeTx.chunkLen.toNat ≤ 0x200 ∧ (0x200 : Half).toNat ≤ 0x200 := by
  decide

theorem witness_TeardownSteps :
    (busyAt .read (.td .close)).portOpen = true ∧ base.portOpen = false ∧
      (busyAt .read (.td .stream)).streamOpen = true ∧ base.streamOpen = false := by
  decide

theorem witness_HostRegisterMap :
    (withTurn (.hostRead 9) base).nextTurn = (.hostRead 9, base) ∧
      step (withTurn (.hostRead 9) base) = .next { base with rdata := 0 } ∧
      (withTurn (.hostWrite 10 5) base).nextTurn = (.hostWrite 10 5, base) ∧ base.busy = false ∧
      (busyAt .read .range).busy = true ∧ (2 : Word).getLsbD 0 = false ∧ 4 < 5 ∧ 4 < 10 :=
  ⟨rfl, rfl, rfl, rfl, rfl, by decide, by decide, by decide⟩

theorem witness_ResetValues :
    (withTurn .rst (busyAt .read .range)).nextTurn = (.rst, busyAt .read .range) := rfl

theorem witness_BufferMemory :
    Memory.wf [] = true ∧ Memory.wf [(0, 1), (520, 2)] = true ∧ (520 : Nat) ≤ 520 := by decide

/-- The first and the last chunk of V34. -/
theorem witness_ChunkSplitCoversRegion :
    (chunkSplit 0 1025)[0]? = some (0, 512) ∧ 0 + 1 < (chunkSplit 0 1025).length ∧
      (chunkSplit 0 1025)[2]? = some (0x400, 1) := by
  decide

theorem witness_CurrentChunkIsSplitEntry :
    Inv (readAt .tx) ∧ (readAt .tx).step.inChunk = true ∧ Inv writeTx ∧ writeTx.step.inChunk = true :=
  ⟨inv_readTx, rfl, inv_writeTx, rfl⟩

/-- A step of the session from a state of the invariant: program P6's first step of teardown. -/
theorem witness_StepKeepsInvariant :
    Inv (withTurn turn failedClose) ∧ ∃ t, step (withTurn turn failedClose) = .next t :=
  ⟨inv_failedClose.of_unread rfl, _, rfl⟩

theorem witness_InvariantNeverFaults : Inv (eraseAt .tx) ∧ Inv writeCommit := ⟨inv_eraseTx, inv_writeCommit⟩

/-- Program P1 with ticks of no length: a CONNECT session whose delays are all zero. -/
def promptConnect : State :=
  let e : Config.Turn := turn
  let c : Config.Params :=
    ⟨⟨0x5A, 1, 2, 3, 4, [0], [0], [0], 0, 0, 0, 0, 0, 0, 0, 0, 0, 0, 0, 0, 1, .one⟩, by decide⟩
  { State.resetWith c with
    inputs := [.hostWrite 4 1, e, e, e, e, e, .engine { good with tx := .count 96 }, e, e, .peer [0x11], e, e,
      e, e, e, e, e] }

set_option maxRecDepth 20000 in
/-- A session of each kind that ended well, and a run from power-on to such an end. -/
theorem witness_SuccessfulSessionCounts :
    (Inv (endedWell .connectOnly 0 1 0 []) ∧ Inv (endedWell .erase 0 5 1 []) ∧
      Inv (endedWell .read 0 4 0 []) ∧ Inv (endedWell .read 1 5 1 [0x42]) ∧
      Inv (endedWell .write 0x201 6 2 [])) ∧
    (∀ (op : Op) (n c k : Nat) (bs : List Byte),
      (endedWell op n c k bs).done = true ∧ (endedWell op n c k bs).ok = true) ∧
    (after (Host.Core.run core 17 promptConnect) fun t : State => t.done && t.ok) = some true :=
  ⟨inv_endedWell, fun _ _ _ _ _ => ⟨rfl, rfl⟩, rfl⟩

theorem witness_OnlyClockAdvancesNow :
    (withTurn .clock base).nextTurn = (.clock, base) ∧
      step (withTurn .clock base) = .next { base with now := 1 } ∧
      step (withTurn (.peer [0x22]) base) = .next { base with rxq := [0x22] } :=
  ⟨rfl, rfl, rfl⟩

theorem witness_HistoryGrowsByOne :
    (withTurn turn failedClose).nextTurn = (turn, failedClose) ∧
      (after (step (withTurn turn failedClose)) State.hist) = some [Event.close true] ∧
      (after (step (withTurn .rst failedClose)) State.hist) = some [Event.reset] ∧
      (after (step (withTurn .clock failedClose)) State.hist) = some [] :=
  ⟨rfl, rfl, rfl, rfl⟩

theorem witness_TxcallsCountsTransmissions :
    (withTurn turn (eraseAt .tx)).nextTurn = (turn, eraseAt .tx) ∧
      (after (step (withTurn turn (eraseAt .tx))) State.txcalls) = some 5 ∧
      (after (step (withTurn turn failedClose)) State.txcalls) = some 1 :=
  ⟨rfl, rfl, rfl⟩

theorem witness_WhoWritesTheRequest :
    (withTurn turn failedClose).nextTurn = (turn, failedClose) ∧ turn ≠ .rst ∧
      (∃ t, step (withTurn turn failedClose) = .next t) ∧
      (withTurn (.hostWrite 4 1) failedClose).nextTurn = (.hostWrite 4 1, failedClose) ∧
      failedClose.busy = true :=
  ⟨rfl, by decide, ⟨_, rfl⟩, rfl, rfl⟩

theorem witness_EngineIgnoresRequestRegisters :
    (withTurn turn (eraseAt .tx)).nextTurn = (.engine good, eraseAt .tx) := rfl

theorem witness_EngineFollowsSuccessorTable :
    Inv (withTurn turn (eraseAt .tx)) ∧ (withTurn turn (eraseAt .tx)).nextTurn = (.engine good, eraseAt .tx) ∧
      (after (step (withTurn turn (eraseAt .tx))) State.step) = some (SeqStep.er .await) :=
  ⟨inv_eraseTx.of_unread rfl, rfl, rfl⟩

/-- SESSION changes: at HS_FLUSH it becomes Connected. -/
theorem witness_SessionFollowsOrder :
    Inv (withTurn turn flushing) ∧ (withTurn turn flushing).nextTurn = (.engine good, flushing) ∧
      (after (step (withTurn turn flushing)) State.session) = some .connected ∧
      flushing.session = .disconnected :=
  ⟨inv_flushing.of_unread rfl, rfl, rfl, rfl⟩

/-- ERR is written by a timeout and cleared by START and by reset. -/
theorem witness_ErrWrittenOnceFromTable :
    Inv (withTurn (.engine quiet) late) ∧ (withTurn (.engine quiet) late).nextTurn = (.engine quiet, late) ∧
      (after (step (withTurn (.engine quiet) late)) State.err) = some 0x132 ∧ late.err = 0 ∧
      Inv (withTurn .rst failedClose) ∧
      (after (step (withTurn .rst failedClose)) State.err) = some 0 ∧ failedClose.err = 0x132 ∧
      Inv (withTurn (.hostWrite 4 1) ended) ∧
      (after (step (withTurn (.hostWrite 4 1) ended)) State.err) = some 0 ∧ ended.err = 0x132 :=
  ⟨inv_late.of_unread rfl, rfl, rfl, rfl, inv_failedClose.of_unread rfl, rfl, rfl, inv_ended.of_unread rfl, rfl,
    rfl⟩

theorem witness_FailureAbortsTheRest :
    Inv (withTurn turn failedClose) ∧ failedClose.failed = true ∧
      (withTurn turn failedClose).nextTurn = (.engine good, failedClose) ∧
      ∃ t, step (withTurn turn failedClose) = .next t :=
  ⟨inv_failedClose.of_unread rfl, rfl, rfl, _, rfl⟩

theorem witness_TeardownReleasesEverything :
    failedClose.step = .td .close ∧ failedClose.cmode = .idle ∧
      ({ failedClose with inputs := [turn, turn, turn] } : State).inputs =
        .engine good :: .engine good :: .engine good :: [] :=
  ⟨rfl, rfl, rfl⟩

theorem witness_FlashCommandsAreLegal :
    (Inv (withTurn turn (readAt .tx)) ∧ ∃ t, step (withTurn turn (readAt .tx)) = .next t) ∧
      (Inv (withTurn turn writeTx) ∧ ∃ t, step (withTurn turn writeTx) = .next t) ∧
      (Inv (withTurn turn (eraseAt .tx)) ∧ ∃ t, step (withTurn turn (eraseAt .tx)) = .next t) :=
  ⟨⟨inv_readTx.of_unread rfl, _, rfl⟩, ⟨inv_writeTx.of_unread rfl, _, rfl⟩, inv_eraseTx.of_unread rfl, _, rfl⟩

theorem witness_CommitNeedsValidatedResponse :
    (Inv (withTurn turn readCommit) ∧
        (after (step (withTurn turn readCommit)) fun t => (t.chunks, t.sink)) = some (1, [0x42])) ∧
      (Inv (withTurn turn writeCommit) ∧
        (after (step (withTurn turn writeCommit)) fun t => (t.chunks, t.sink)) = some (1, [])) ∧
      (Inv (withTurn turn eraseCommit) ∧
        (after (step (withTurn turn eraseCommit)) fun t => (t.chunks, t.sink)) = some (1, [])) :=
  ⟨⟨inv_readCommit.of_unread rfl, rfl⟩, ⟨inv_writeCommit.of_unread rfl, rfl⟩, inv_eraseCommit.of_unread rfl, rfl⟩

theorem witness_IrqRisesAtFinish :
    ((busyAt .erase (.td .finish)).irq = false ∧
        (after (step (withTurn turn (busyAt .erase (.td .finish)))) State.irq) = some true) ∧
      (ended.irq = true ∧ (after (step (withTurn (.hostWrite 4 1) ended)) State.irq) = some false) ∧
      (after (step (withTurn .rst ended)) State.irq) = some false :=
  ⟨⟨rfl, rfl⟩, ⟨rfl, rfl⟩, rfl⟩

end Sys2Proof.Tests.Slice0
end

section
/-!
SUPPORT. The frame decoders on stamped frames, and what the Peer sends (R88 to R101): O4 and O13.
-/

namespace Sys2Proof.Codec

/-! ## The checksum as a sum -/

theorem sumFrom_eq (acc : Byte) (bs : List Byte) :
    sumFrom acc bs = acc + BitVec.ofNat 8 (Machine.byteSum bs) := by
  induction bs generalizing acc with
  | nil => simp [sumFrom, Machine.byteSum]
  | cons b bs ih =>
    rw [sumFrom, ih]
    simp [Machine.byteSum, BitVec.ofNat_add, BitVec.add_assoc]

/-- The checksum is the byte sum modulo 256 (R120). -/
theorem sum8_eq_byteSum (bs : List Byte) : sum8 bs = BitVec.ofNat 8 (Machine.byteSum bs) := by
  simp [sum8, sumFrom_eq]

/-! ## Frames behind a header -/

/-- The bytes of a stamped header and payload, as the decoders match them: eight, and at least the trailer
behind them (R88, R90). -/
theorem stamped_header_append (m x : Byte) (a : Word) (n : Half) (d : List Byte) :
    ∃ t rest, (t :: rest).dropLast = d ∧
      stamped (header m x a n ++ d) =
        m :: x :: a.extractLsb' 0 8 :: a.extractLsb' 8 8 :: a.extractLsb' 16 8 ::
          a.extractLsb' 24 8 :: n.extractLsb' 0 8 :: n.extractLsb' 8 8 :: t :: rest := by
  cases d with
  | nil => exact ⟨_, [], rfl, rfl⟩
  | cons b d =>
    exact ⟨b, d ++ [sum8 (header m x a n ++ b :: d)],
      by rw [← List.cons_append, List.dropLast_concat], rfl⟩

/-- The four sub-op codes are pairwise distinct (R103). -/
theorem subops_distinct (c : Config.Params) :
    c.raw.subopRead ≠ c.raw.subopWrite ∧ c.raw.subopRead ≠ c.raw.subopEraseAll ∧
      c.raw.subopRead ≠ c.raw.subopEraseSector ∧ c.raw.subopWrite ≠ c.raw.subopEraseAll ∧
      c.raw.subopWrite ≠ c.raw.subopEraseSector ∧ c.raw.subopEraseAll ≠ c.raw.subopEraseSector := by
  have h := c.ok
  simp only [Config.Raw.valid, Bool.and_eq_true, bne_iff_ne] at h
  tauto

end Sys2Proof.Codec

namespace Sys2Proof.Decode

/-- A stamped command frame is read by its sub-op, its two slots and its payload (R88, R90). -/
theorem command_stamped (c : Config.Params) (x : Byte) (a : Word) (n : Half) (d : List Byte) :
    command c (Codec.stamped (Codec.header c.raw.marker x a n ++ d)) = commandFields c x a n d := by
  have htr := Codec.trailerOk_stamped (Codec.header c.raw.marker x a n ++ d)
  obtain ⟨t, rest, hd, hf⟩ := Codec.stamped_header_append c.raw.marker x a n d
  rw [hf] at htr ⊢
  simp [command, htr, Codec.rd32_le32, Codec.rd16_le16, hd]

/-- A stamped read response of at most 0x200 bytes is read back (R95). -/
theorem response_rspRead (c : Config.Params) (a : Word) (d : List Byte) (h : d.length ≤ 512) :
    response c .read (Codec.stamped (Codec.rspReadBody c a d)) = .ok (.rspRead a d) := by
  have htr := Codec.trailerOk_stamped (Codec.rspReadBody c a d)
  have hlen : (BitVec.ofNat 16 d.length).toNat = d.length := by
    rw [BitVec.toNat_ofNat, Nat.mod_eq_of_lt (by omega)]
  unfold Codec.rspReadBody at htr ⊢
  obtain ⟨t, rest, hd, hf⟩ :=
    Codec.stamped_header_append c.raw.marker Config.statusOk a (BitVec.ofNat 16 d.length) d
  rw [hf] at htr ⊢
  simp only [response, htr, Codec.rd32_le32, Codec.rd16_le16, hd, hlen, Config.chunkMax_eq]
  simp [h]

/-- A stamped nine-byte response is read back (R96). -/
theorem response_rspAck9 (c : Config.Params) (r2 r3 r4 r5 r6 r7 : Byte) :
    response c .ack9 (Codec.stamped (Codec.rspAck9Body c r2 r3 r4 r5 r6 r7)) =
      .ok (.rspAck9 r2 r3 r4 r5 r6 r7) := by
  have htr := Codec.trailerOk_stamped (Codec.rspAck9Body c r2 r3 r4 r5 r6 r7)
  simp only [Codec.stamped, Codec.rspAck9Body, List.cons_append, List.nil_append] at htr ⊢
  simp only [response, htr]
  simp

/-- A constant table is read back as the row that sends it (R97, R100). -/
theorem asset_assetBytes (c : Config.Params) (k : Asset) :
    asset c k (Codec.assetBytes c k) = .ok (assetInstr k) := if_pos rfl

theorem commandFields_read (c : Config.Params) {a : Word} {n : Half}
    (h : (Instr.cmdRead a n).wf = true) :
    commandFields c c.raw.subopRead a n [] = .ok (.cmdRead a n) := by
  simp [commandFields, h]

theorem commandFields_write (c : Config.Params) {a : Word} {d : List Byte}
    (h : (Instr.cmdWrite a d).wf = true) :
    commandFields c c.raw.subopWrite a 0 d = .ok (.cmdWrite a d) := by
  obtain ⟨hrw, -⟩ := Codec.subops_distinct c
  simp [commandFields, h, hrw.symm]

theorem commandFields_eraseAll (c : Config.Params) :
    commandFields c c.raw.subopEraseAll 0 0 [] = .ok .cmdEraseAll := by
  obtain ⟨-, hra, -, hwa, -⟩ := Codec.subops_distinct c
  simp [commandFields, hra.symm, hwa.symm]

theorem commandFields_eraseSector (c : Config.Params) {t : Word}
    (h : (Instr.cmdEraseSector t).wf = true) :
    commandFields c c.raw.subopEraseSector t 0 [] = .ok (.cmdEraseSector t) := by
  obtain ⟨-, -, hrs, -, hws, has⟩ := Codec.subops_distinct c
  simp [commandFields, h, hrs.symm, hws.symm, has.symm]

end Sys2Proof.Decode

namespace Sys2Proof

/-- Settles O4, row by row: a command is read back by its sub-op, a response by its shape, and every other
row from its code. -/
theorem decodeEncode : Obligations.DecodeEncode := by
  intro c i h
  cases i with
  | cmdRead a n =>
    have hf := Decode.command_stamped c c.raw.subopRead a n []
    rw [List.append_nil] at hf
    exact hf.trans (Decode.commandFields_read c h)
  | cmdWrite a d =>
    exact (Decode.command_stamped c c.raw.subopWrite a 0 d).trans (Decode.commandFields_write c h)
  | cmdEraseAll =>
    have hf := Decode.command_stamped c c.raw.subopEraseAll 0 0 []
    rw [List.append_nil] at hf
    exact hf.trans (Decode.commandFields_eraseAll c)
  | cmdEraseSector t =>
    have hf := Decode.command_stamped c c.raw.subopEraseSector t 0 []
    rw [List.append_nil] at hf
    exact hf.trans (Decode.commandFields_eraseSector c h)
  | rspRead echo d => exact Decode.response_rspRead c echo d (by simpa [Instr.wf] using h)
  | rspAck9 r2 r3 r4 r5 r6 r7 => exact Decode.response_rspAck9 c r2 r3 r4 r5 r6 r7
  | hsTraining | announceCmd | loaderBin | executeCmd => exact Decode.asset_assetBytes c _
  | execStream _ | checksum _ | checksumStamp _ | checksumValidate _ => exact if_pos h
  | reqConnectOnly | reqRead | reqWrite | reqErase | hsAck | genAck | awaitEq | awaitAck | awaitCount
  | awaitFrame | openPort | txwrite _ | poll | flush | ctlAssert | ctlRelease | close | srcRead
  | sinkWrite | streamClose | wait _ | seqStart | seqRange | seqHandshake _ | seqLoader _
  | seqDispatch | seqReadChunk _ | seqWriteChunk _ | seqErase _ | seqTeardown _ => rfl

end Sys2Proof

namespace Sys2Proof.Codec

/-- The length slot of a response, byte by byte (R14, R95). -/
theorem le16_ofNat (n : Nat) :
    le16 (BitVec.ofNat 16 n) = [BitVec.ofNat 8 n, BitVec.ofNat 8 (n / 256)] := by
  have h0 : (BitVec.ofNat 16 n).extractLsb' 0 8 = BitVec.ofNat 8 n :=
    BitVec.eq_of_toNat_eq (by simp)
  have h1 : (BitVec.ofNat 16 n).extractLsb' 8 8 = BitVec.ofNat 8 (n / 256) :=
    BitVec.eq_of_toNat_eq (by simp [Nat.shiftRight_eq_div_pow]; omega)
  rw [le16, h0, h1]

/-- A read response's bytes before its trailer (R95). -/
theorem rspReadBody_eq (c : Config.Params) (a : Word) (d : List Byte) :
    rspReadBody c a d =
      [c.raw.marker, 0x00, a.extractLsb' 0 8, a.extractLsb' 8 8, a.extractLsb' 16 8,
        a.extractLsb' 24 8, BitVec.ofNat 8 d.length, BitVec.ofNat 8 (d.length / 256)] ++ d := by
  rw [rspReadBody, header, le16_ofNat]
  rfl

/-- The trailer of a nine-byte response: the status adds nothing (R96, R120). -/
theorem sum8_rspAck9Body (c : Config.Params) (r2 r3 r4 r5 r6 r7 : Byte) :
    sum8 (rspAck9Body c r2 r3 r4 r5 r6 r7) =
      c.raw.marker + r2 + r3 + r4 + r5 + r6 + r7 := by
  simp [sum8, sumFrom, rspAck9Body]

end Sys2Proof.Codec

namespace Sys2Proof.Machine

/-- Settles O13: each received row is `State.receive` of its bytes. -/
theorem peerBytesJoinQueue : Obligations.PeerBytesJoinQueue := by
  refine ⟨?rspRead, ?rspAck9, fun _ => rfl, fun _ => rfl, fun _ _ => rfl⟩
  case rspRead =>
    intro a d s _ body
    have hb : Codec.rspReadBody s.cfg a d = body := Codec.rspReadBody_eq s.cfg a d
    have hx : exec (.rspRead a d) s =
        .next (s.receive (Codec.stamped (Codec.rspReadBody s.cfg a d))) := rfl
    rw [hx, hb, Codec.stamped, Codec.sum8_eq_byteSum, State.receive, ← List.append_assoc]
  case rspAck9 =>
    intro r2 r3 r4 r5 r6 r7 s
    have hx : exec (.rspAck9 r2 r3 r4 r5 r6 r7) s =
        .next (s.receive (Codec.stamped (Codec.rspAck9Body s.cfg r2 r3 r4 r5 r6 r7))) := rfl
    rw [hx, Codec.stamped, Codec.sum8_rspAck9Body]
    rfl

end Sys2Proof.Machine
end

section
/-!
SUPPORT. What one move is, by the agent that makes it (R10, R192): O1 and O2.
-/

namespace Sys2Proof.Machine

/-! ## Running a code -/

theorem runCode_ok {k : Code} {i : Instr} {f : State → State} {s : State}
    (h : decode s.cfg k = .ok i) : runCode k f s = exec i s := by
  rw [runCode, h]

theorem runCode_error {k : Code} {e : DecodeError} {f : State → State} {s : State}
    (h : decode s.cfg k = .error e) : runCode k f s = .next (f s) := by
  rw [runCode, h]

/-- The idle engine has no action (R192). -/
theorem engineCode_idle {s : State} (h : s.step = .idle) : s.engineCode = none := if_pos h

/-- The engine's next action stands in the collector's mode while an await runs, else in the step register
(R40, R143). -/
theorem engineCode_working {s : State} (h : s.step ≠ .idle) :
    s.engineCode = some (if s.cmode = .idle then .stage s.step else .mode s.cmode.code) := by
  rw [State.engineCode, if_neg h]
  split <;> rfl

theorem engineStep_of_decode {s : State} {i : Instr} (h : s.step ≠ .idle)
    (hd : decode s.cfg (if s.cmode = .idle then .stage s.step else .mode s.cmode.code) = .ok i) :
    engineStep s = exec i s := by
  rw [engineStep, engineCode_working h]
  exact runCode_ok hd

theorem engineStep_idle {s : State} (h : s.step = .idle) : engineStep s = .next s := by
  rw [engineStep, engineCode_idle h]

/-- A write of CTRL with bit 0 set runs the code in REQ_OP (R27, R87). -/
theorem hostWriteStep_start {s : State} {v : Word} (h : v.getLsbD 0 = true) :
    hostWriteStep ctrlReg v s = runCode s.requestCode id s := if_pos ⟨rfl, h⟩

/-- Settles O1: the schedule's head by cases on the schedule, and one decoded code per agent. -/
theorem stepRunsDecodedInstruction : Obligations.StepRunsDecodedInstruction := by
  refine ⟨?scheduled, ?drawn, ?engine, ?host, ?peer⟩
  case scheduled =>
    intro s m ms h
    rw [State.nextTurn, h]
  case drawn =>
    intro s h
    rw [State.nextTurn, h]
  case engine =>
    intro s u a i h hs hd
    rw [step_of_nextTurn h]
    exact engineStep_of_decode (s := { u with ans := a }) hs hd
  case host =>
    intro s u v i h hv hd
    rw [step_of_nextTurn h]
    exact (hostWriteStep_start hv).trans (runCode_ok hd)
  case peer =>
    intro s u bs i h hd
    rw [step_of_nextTurn h]
    exact runCode_ok hd

/-- Settles O2: the moves for which there is no code, or a code that is no instruction. -/
theorem stepWithoutInstruction : Obligations.StepWithoutInstruction := by
  refine ⟨?engine, ?peer, fun s u h => step_of_nextTurn h, fun s u n h => step_of_nextTurn h⟩
  case engine =>
    intro s u a h hs
    rw [step_of_nextTurn h]
    exact engineStep_idle (s := { u with ans := a }) hs
  case peer =>
    intro s u bs e h hd
    rw [step_of_nextTurn h]
    exact runCode_error hd

end Sys2Proof.Machine
end

section
/-!
SUPPORT. What one engine step can do, said once (R192, R207, R246), and what every agent does to the schedule and
the history: O49.
-/

namespace Sys2Proof.Machine

/-! ## The frame of an engine action -/

/-- What an engine step does to the clock, the schedule and the history: the first two stay, and at most one
event joins the last (R17, R48, R192). -/
structure EngineFrame (s t : State) : Prop where
  now : t.now = s.now
  inputs : t.inputs = s.inputs
  draws : t.draws = s.draws
  hist : ∃ es : List Event, es.length ≤ 1 ∧ t.hist = s.hist ++ es

/-- What an action at a step has left alone when it settles: besides the frame, the step register and BUSY; the
collector keeps its mode or becomes idle (R192). -/
structure Acted (s u : State) : Prop extends EngineFrame s u where
  step : u.step = s.step
  busy : u.busy = s.busy
  cmode : u.cmode = s.cmode ∨ u.cmode = .idle

theorem Acted.refl (s : State) : Acted s s where
  now := rfl
  inputs := rfl
  draws := rfl
  hist := ⟨[], by simp, by simp⟩
  step := rfl
  busy := rfl
  cmode := .inl rfl

/-- A call records itself (R16, R17). -/
theorem Acted.log (e : Event) (s : State) : Acted s (s.log e) where
  now := rfl
  inputs := rfl
  draws := rfl
  hist := ⟨[e], by simp, rfl⟩
  step := rfl
  busy := rfl
  cmode := .inl rfl

/-- Every state that an action can leave satisfies `P`. -/
def Act.Leaves (P : State → Prop) : Act → Prop
  | .ok u | .hold u | .fail _ u => P u
  | .refuse _ | .stop _ => True

theorem Act.Leaves.andThen {P : State → Prop} {a : Act} {k : State → Act} (ha : a.Leaves P)
    (hk : ∀ u, P u → (k u).Leaves P) : (a.andThen k).Leaves P := by
  cases a with
  | ok u => exact hk u ha
  | hold u => exact ha
  | fail c u => exact ha
  | refuse r => trivial
  | stop f => trivial

/-! ## The actions -/

theorem storeTx_acted {s u : State} (h : Acted s u) (a : Nat) (bs : List Byte) :
    (storeTx a bs u).Leaves (Acted s) := by
  unfold storeTx
  split
  · exact { h with }
  · trivial

theorem stampTx_acted {s u : State} (h : Acted s u) (n : Nat) : (stampTx n u).Leaves (Acted s) := by
  unfold stampTx
  split
  · exact { h with }
  · trivial

theorem buildTx_acted {s u : State} (h : Acted s u) (body : List Byte) :
    (buildTx body u).Leaves (Acted s) :=
  (storeTx_acted h 0 body).andThen fun _ hv => stampTx_acted hv _

theorem buildWrite_acted (a : Word) (d : List Byte) (s : State) :
    (buildWrite a d s).Leaves (Acted s) :=
  ((storeTx_acted (.refl s) 0 _).andThen fun _ hu => storeTx_acted hu _ d).andThen
    fun _ hv => stampTx_acted hv _

theorem txSend_acted (src : TxSrc) (s : State) : (txSend src s).Leaves (Acted s) := by
  have hsent : ∀ bs : List Byte, Acted s (s.log (.txWrite bs s.ans.tx)) := fun bs => .log _ s
  rcases txSend_cases src s with ⟨-, -, h⟩ | ⟨-, h⟩
  · rw [h]; trivial
  rw [h]
  rcases txWrite_cases (s.txBytes src) s with
    ⟨-, h⟩ | ⟨-, ⟨c, -, -, h⟩ | ⟨-, h⟩ | ⟨c, -, -, h⟩ | ⟨-, h⟩⟩ <;> rw [h]
  · trivial
  · trivial
  all_goals exact { hsent _ with }

theorem openCall_acted (s : State) : (openCall s).Leaves (Acted s) := by
  rcases openCall_cases s with ⟨-, h⟩ | ⟨-, h⟩ <;> rw [h] <;> exact { Acted.log _ s with }

theorem waitCall_acted (t : WaitArg) (s : State) : (waitCall t s).Leaves (Acted s) := by
  rcases waitCall_cases t s with ⟨-, h⟩ | ⟨-, -, h⟩ | ⟨-, -, h⟩ <;> rw [h] <;>
    exact { Acted.refl s with }

theorem sinkCall_acted (s : State) : (sinkCall s).Leaves (Acted s) := by
  rcases sinkCall_cases s with ⟨-, h⟩ | ⟨-, -, ⟨-, h⟩ | ⟨-, h⟩⟩ <;> rw [h]
  · trivial
  all_goals exact { Acted.log _ s with }

theorem srcStep_acted (s : State) : (srcStep s).Leaves (Acted s) := by
  rcases srcStep_cases s with ⟨b, -, -, h⟩ | ⟨b, -, -, h⟩ | ⟨-, h⟩ | ⟨-, h⟩ <;> rw [h]
  · exact { Acted.log _ s with }
  · trivial
  all_goals exact { Acted.log _ s with }

theorem closeCall_acted (s : State) : Acted s (closeCall s) := by
  unfold closeCall
  split
  · exact { Acted.log _ s with }
  · exact .refl s

theorem streamCloseCall_acted (s : State) : Acted s (streamCloseCall s) := by
  unfold streamCloseCall
  split
  · exact { Acted.log _ s with }
  · exact .refl s

/-! ## The collector -/

theorem failAwait_acted {s u : State} (h : Acted s u) (c : Cause) :
    (failAwait c u).Leaves (Acted s) := { h with cmode := .inr rfl }

theorem doneAwait_acted {s u : State} (h : Acted s u) : (doneAwait u).Leaves (Acted s) :=
  { h with cmode := .inr rfl }

theorem validateRx_acted {s u : State} (h : Acted s u) (n : Nat) :
    (validateRx n u).Leaves (Acted s) := by
  unfold validateRx
  split_ifs
  · trivial
  · trivial
  · exact h
  · exact failAwait_acted h _

theorem checkLength_acted {s u : State} (h : Acted s u) : (checkLength u).Leaves (Acted s) := by
  unfold checkLength
  simp only
  split_ifs
  · exact failAwait_acted h _
  · exact failAwait_acted h _
  · exact { h with }
  · exact h

theorem checkEnd_acted {s u : State} (h : Acted s u) : (checkEnd u).Leaves (Acted s) := by
  unfold checkEnd
  split_ifs
  · exact (validateRx_acted h _).andThen fun _ hv => doneAwait_acted hv
  · exact h

theorem acceptFrame_acted {s u : State} (h : Acted s u) (b : Byte) :
    (acceptFrame b u).Leaves (Acted s) := by
  have hstored : Acted s
      { u with rxbuf := Memory.write u.cidx b u.rxbuf, cidx := u.cidx + 1 } := { h with }
  unfold acceptFrame
  simp only
  split_ifs
  · trivial
  · exact failAwait_acted hstored _
  · exact failAwait_acted hstored _
  · exact (checkLength_acted hstored).andThen fun _ hv => checkEnd_acted hv

theorem accept_acted {s u : State} (h : Acted s u) (b : Byte) : (accept b u).Leaves (Acted s) := by
  have hone : Acted s { u with cidx := 1 } := { h with }
  have hcount : Acted s { u with cidx := u.cidx + 1 } := { h with }
  cases hm : u.cmode with
  | idle => unfold accept; rw [hm]; exact h
  | eq =>
    rw [accept_eq hm, acceptEq]
    split_ifs
    · exact doneAwait_acted hone
    · exact failAwait_acted hone _
  | ack =>
    rw [accept_ack hm, acceptAck]
    split_ifs
    · exact doneAwait_acted hone
    · exact failAwait_acted hone _
  | count =>
    rw [accept_count hm, acceptCount]
    split_ifs
    · exact doneAwait_acted hcount
    · exact hcount
  | frame => rw [accept_frame hm]; exact acceptFrame_acted h b

theorem collect_acted (s : State) : (collect s).Leaves (Acted s) := by
  rcases collect_cases s with h | ⟨-, h⟩ | ⟨-, h⟩ | ⟨b, q, -, h⟩ | h <;> rw [h]
  · exact failAwait_acted (.log _ s) _
  · exact failAwait_acted (.log _ s) _
  · exact .refl s
  · have hpoll : Acted s { s with hist := s.hist ++ [.poll (.byte b)], rxq := q } :=
      { Acted.log (.poll (.byte b)) s with }
    exact accept_acted hpoll b
  · trivial

/-! ## Settling -/

/-- How an action at a step settles: it holds, goes on at the successor, or takes a failure. FINISH does not go
on, it ends the session (R192, R206, R246). -/
def Settled (s t : State) : Prop :=
  ∃ u, Acted s u ∧
    (t = u ∨ (s.step ≠ .td .finish ∧ t = u.advance s.step) ∨ ∃ c, t = u.raise s.step c)

/-- Only FINISH leads to IDLE (R207). -/
theorem successor_ne_idle {st : SeqStep} (h : st ≠ .td .finish) (u : State) : successor u st ≠ .idle := by
  cases st with
  | opDispatch => unfold successor; cases u.op <;> simp
  | hs x => cases x <;> unfold successor <;> split_ifs <;> simp
  | rd x => cases x <;> unfold successor <;> split_ifs <;> simp
  | wr x => cases x <;> unfold successor <;> split_ifs <;> simp
  | ld x => cases x <;> simp [successor]
  | er x => cases x <;> simp [successor]
  | td x => cases x <;> simp_all [successor]
  | idle | range | openPort => simp [successor]

theorem settled_of_seqStep {s t : State} {a : Act} (hf : s.step ≠ .td .finish)
    (ha : a.Leaves (Acted s)) (h : seqStep s.step a = .next t) : Settled s t := by
  rcases Act.settle_next h with ⟨u, rfl, e⟩ | ⟨u, rfl, e⟩ | ⟨c, u, rfl, e⟩
  · exact ⟨u, ha, .inr (.inl ⟨hf, e⟩)⟩
  · exact ⟨u, ha, .inl e⟩
  · exact ⟨u, ha, .inr (.inr ⟨c, e⟩)⟩

/-- A completed await goes on at the step after it, with LoaderInstalled behind EXECUTE's (R149, R198). -/
theorem finishAwait_await {st : SeqStep} (h : (awaitMode st).isSome = true) (u : State) :
    ∃ x : Session, u.finishAwait st = State.advance st { u with session := x } := by
  unfold State.finishAwait
  split
  case h_1 hn => simp [hn] at h
  case h_2 =>
    split_ifs
    · exact ⟨.loaderInstalled, rfl⟩
    · exact ⟨u.session, rfl⟩

/-- At a step that is no await there is no step after it. -/
theorem finishAwait_none {st : SeqStep} (h : awaitMode st = none) (u : State) : u.finishAwait st = u := by
  rw [State.finishAwait, h]

theorem settled_of_collect {s t : State}
    (h : (collect s).settle s.step (State.finishAwait s.step) = .next t) : Settled s t := by
  have ha := collect_acted s
  rcases Act.settle_next h with ⟨u, hu, e⟩ | ⟨u, hu, e⟩ | ⟨c, u, hu, e⟩ <;> rw [hu] at ha
  · cases hm : awaitMode s.step with
    | none => exact ⟨u, ha, .inl (e.trans (finishAwait_none hm u))⟩
    | some p =>
      have hf : s.step ≠ .td .finish := by
        intro hs
        simp [hs, awaitMode] at hm
      obtain ⟨x, hx⟩ := finishAwait_await (by rw [hm]; rfl) u
      exact ⟨{ u with session := x }, { ha with }, .inr (.inl ⟨hf, e.trans hx⟩)⟩
  · exact ⟨u, ha, .inl e⟩
  · exact ⟨u, ha, .inr (.inr ⟨c, e⟩)⟩

theorem settled_of_openPort {s t : State} (hs : s.step = .openPort) (h : execOpenPort s = .next t) :
    Settled s t := by
  have ha := openCall_acted s
  rcases Act.settle_next h with ⟨u, hu, e⟩ | ⟨u, hu, e⟩ | ⟨c, u, hu, e⟩ <;> rw [hu] at ha
  · rw [if_pos hs, ← hs] at e
    exact ⟨u, ha, .inr (.inl ⟨by simp [hs], e⟩)⟩
  · exact ⟨u, ha, .inl e⟩
  · exact ⟨u, ha, .inr (.inr ⟨c, e⟩)⟩

/-- An await's entry: the collector takes the mode and shape of the step's await, and the step stays (R142). -/
def Entered (s t : State) : Prop :=
  ∃ (m : CMode) (sh : Shape) (budget : Nat),
    awaitMode s.step = some (m, sh) ∧ (m = .frame → t.cshape = sh) ∧
      (m = .eq → t.cexp = Config.hsAckByte) ∧
      t = { s with cexp := t.cexp, cshape := t.cshape }.enterAwait m budget

/-- An await step of the idle collector is the await's entry. -/
theorem seqAwait_of_idle {s : State} (hc : s.cmode = .idle) (st : SeqStep) (enter : State → State) :
    seqAwait st enter s = .next (enter s) := if_pos hc

/-! ## The stages, with the collector idle -/

theorem execSeqRange_cases {s t : State} (hs : s.step = .range) (h : execSeqRange s = .next t) :
    Settled s t := by
  unfold execSeqRange at h
  rw [← hs] at h
  refine settled_of_seqStep (by simp [hs]) ?_ h
  split_ifs <;> exact Acted.refl s

theorem execSeqHandshake_cases {s t : State} {x : HsStep} (hs : s.step = .hs x)
    (hc : s.cmode = .idle) (h : execSeqHandshake x s = .next t) : Entered s t ∨ Settled s t := by
  cases x <;> simp only [execSeqHandshake, ← hs, seqAwait_of_idle hc] at h
  case await =>
    cases h
    exact .inl ⟨.eq, .read, _, by rw [hs]; rfl, by simp, fun _ => rfl, rfl⟩
  all_goals refine .inr (settled_of_seqStep (by simp [hs]) ?_ h)
  case assert => exact { Acted.log .ctlAssert s with }
  case powerWait => exact waitCall_acted _ s
  case train => exact txSend_acted _ s
  case release => exact { Acted.log .ctlRelease s with }
  case settle => exact waitCall_acted _ s
  case flush => exact { Acted.log .flush s with }

theorem execSeqLoader_cases {s t : State} {x : LdStep} (hs : s.step = .ld x)
    (hc : s.cmode = .idle) (h : execSeqLoader x s = .next t) : Entered s t ∨ Settled s t := by
  cases x <;> simp only [execSeqLoader, ← hs, seqAwait_of_idle hc] at h
  case announceAwait | uploadAwait =>
    cases h
    exact .inl ⟨.ack, .read, _, by rw [hs]; rfl, by simp, by simp, rfl⟩
  case execAwait =>
    cases h
    exact .inl ⟨.count, .read, _, by rw [hs]; rfl, by simp, by simp, rfl⟩
  all_goals refine .inr (settled_of_seqStep (by simp [hs]) ?_ h)
  case announceTx | uploadTx | execTx => exact txSend_acted _ s
  case preUpload | preExec => exact waitCall_acted _ s
  case final => exact (waitCall_acted _ s).andThen fun u hu => { hu with }

theorem execSeqDispatch_cases {s t : State} (hs : s.step = .opDispatch)
    (h : execSeqDispatch s = .next t) : Settled s t := by
  unfold execSeqDispatch at h
  rw [← hs] at h
  refine settled_of_seqStep (by simp [hs]) ?_ h
  split
  · trivial
  all_goals exact { Acted.refl s with }

theorem execSeqReadChunk_cases {s t : State} {x : RdStep} (hs : s.step = .rd x)
    (hc : s.cmode = .idle) (h : execSeqReadChunk x s = .next t) : Entered s t ∨ Settled s t := by
  cases x <;> simp only [execSeqReadChunk, ← hs, seqAwait_of_idle hc] at h
  case await =>
    cases h
    exact .inl ⟨.frame, .read, _, by rw [hs]; rfl, fun _ => rfl, by simp, rfl⟩
  all_goals refine .inr (settled_of_seqStep (by simp [hs]) ?_ h)
  case next =>
    have hlen : Acted s { s with chunkLen := s.nextChunkLen } := { Acted.refl s with }
    split_ifs
    · exact Acted.refl s
    · exact buildTx_acted hlen _
  case settle => exact waitCall_acted _ s
  case tx => exact txSend_acted _ s
  case commit => exact (sinkCall_acted s).andThen fun u hu => { hu with }

theorem execSeqWriteChunk_cases {s t : State} {x : WrStep} (hs : s.step = .wr x)
    (hc : s.cmode = .idle) (h : execSeqWriteChunk x s = .next t) : Entered s t ∨ Settled s t := by
  cases x <;> simp only [execSeqWriteChunk, ← hs, seqAwait_of_idle hc] at h
  case await =>
    cases h
    exact .inl ⟨.frame, .ack9, _, by rw [hs]; rfl, fun _ => rfl, by simp, rfl⟩
  all_goals refine .inr (settled_of_seqStep (by simp [hs]) ?_ h)
  case next =>
    split_ifs
    · exact Acted.refl s
    · exact { Acted.refl s with }
  case src => exact srcStep_acted s
  case build => exact buildWrite_acted _ _ s
  case settle => exact waitCall_acted _ s
  case tx => exact txSend_acted _ s
  case commit => exact { Acted.refl s with }

theorem execSeqErase_cases {s t : State} {x : ErStep} (hs : s.step = .er x)
    (hc : s.cmode = .idle) (h : execSeqErase x s = .next t) : Entered s t ∨ Settled s t := by
  cases x <;> simp only [execSeqErase, ← hs, seqAwait_of_idle hc] at h
  case await =>
    cases h
    exact .inl ⟨.frame, .ack9, _, by rw [hs]; rfl, fun _ => rfl, by simp, rfl⟩
  all_goals refine .inr (settled_of_seqStep (by simp [hs]) ?_ h)
  case build => split_ifs <;> exact buildTx_acted (.refl s) _
  case settle => exact waitCall_acted _ s
  case tx => exact txSend_acted _ s
  case commit => exact { Acted.refl s with }

theorem execSeqTeardown_cases {s t : State} {x : TdStep} (hs : s.step = .td x)
    (h : execSeqTeardown x s = .next t) :
    (s.step = .td .finish ∧ t = s.endSession) ∨ Settled s t := by
  cases x
  case finish =>
    cases h
    exact .inl ⟨hs, rfl⟩
  all_goals
    simp only [execSeqTeardown, ← hs] at h
    refine .inr (settled_of_seqStep (by simp [hs]) ?_ h)
  case close => exact closeCall_acted s
  case stream => exact streamCloseCall_acted s

/-! ## The engine's step -/

/-- While an await runs, an engine step is one collect step (R143). -/
theorem engineStep_collect {s : State} (hs : s.step ≠ .idle) (hc : s.cmode ≠ .idle) :
    engineStep s = (collect s).settle s.step (State.finishAwait s.step) := by
  have hmode : ∀ m : CMode, m ≠ .idle → runCode (.mode m.code) id s = runAwait m s := by
    intro m hm
    cases m with
    | idle => exact absurd rfl hm
    | eq | ack | count | frame => rfl
  rw [engineStep, engineCode_working hs, if_neg hc]
  exact (hmode s.cmode hc).trans (if_pos rfl)

/-- What one engine step can end in: nothing at IDLE, an await's entry, the end of the session, or an action
that settles (R142, R192, R206). -/
theorem engineStep_cases {s t : State} (h : engineStep s = .next t) :
    (s.step = .idle ∧ t = s) ∨ (s.cmode = .idle ∧ Entered s t) ∨
      (s.step = .td .finish ∧ t = s.endSession) ∨ Settled s t := by
  by_cases hc : s.cmode = .idle
  case neg =>
    by_cases hs : s.step = .idle
    · rw [engineStep_idle hs] at h
      cases h
      exact .inl ⟨hs, rfl⟩
    · rw [engineStep_collect hs hc] at h
      exact .inr (.inr (.inr (settled_of_collect h)))
  rw [engineStep_eq, hc] at h
  cases hs : s.step <;> simp only [hs] at h
  case idle => cases h; exact .inl ⟨rfl, rfl⟩
  case range => exact .inr (.inr (.inr (execSeqRange_cases hs h)))
  case openPort => exact .inr (.inr (.inr (settled_of_openPort hs h)))
  case hs x => exact .inr ((execSeqHandshake_cases hs hc h).imp (⟨hc, ·⟩) .inr)
  case ld x => exact .inr ((execSeqLoader_cases hs hc h).imp (⟨hc, ·⟩) .inr)
  case opDispatch => exact .inr (.inr (.inr (execSeqDispatch_cases hs h)))
  case rd x => exact .inr ((execSeqReadChunk_cases hs hc h).imp (⟨hc, ·⟩) .inr)
  case wr x => exact .inr ((execSeqWriteChunk_cases hs hc h).imp (⟨hc, ·⟩) .inr)
  case er x => exact .inr ((execSeqErase_cases hs hc h).imp (⟨hc, ·⟩) .inr)
  case td x =>
    rw [← hs]
    exact .inr (.inr (execSeqTeardown_cases hs h))

theorem engineStep_frame {s t : State} (h : engineStep s = .next t) : EngineFrame s t := by
  rcases engineStep_cases h with
    ⟨-, rfl⟩ | ⟨-, m, sh, budget, -, -, -, e⟩ | ⟨-, rfl⟩ | ⟨u, hu, rfl | ⟨-, rfl⟩ | ⟨c, rfl⟩⟩
  · exact { Acted.refl t with }
  · rw [e]
    exact { Acted.refl s with }
  · exact { Acted.refl s with }
  · exact { hu with }
  · exact { hu with }
  · exact { hu with }

/-! ## The other agents -/

/-- A host access moves neither the schedule nor the history (R16, R22 to R27). -/
theorem hostWriteStep_frame {n : Nat} {v : Word} {s t : State} (h : hostWriteStep n v s = .next t) :
    t.inputs = s.inputs ∧ t.draws = s.draws ∧ t.hist = s.hist := by
  rw [hostWriteStep_eq] at h
  unfold State.start State.hostStore at h
  split_ifs at h <;> cases h <;> exact ⟨rfl, rfl, rfl⟩

/-- What a move does to the schedule and the history: the schedule stays, and the history is touched by the
Engine and the reset input only (R16, R17, R78). -/
theorem runTurn_frame {m : Config.Turn} {s t : State} (h : runTurn m s = .next t) :
    t.inputs = s.inputs ∧ t.draws = s.draws ∧
      match m with
      | .engine _ => ∃ es : List Event, es.length ≤ 1 ∧ t.hist = s.hist ++ es
      | .rst => t.hist = [.reset]
      | .hostWrite _ _ | .hostRead _ | .peer _ | .clock => t.hist = s.hist := by
  cases m with
  | engine a =>
    obtain ⟨-, hi, hd, hh⟩ := engineStep_frame h
    exact ⟨hi, hd, hh⟩
  | hostWrite n v => exact hostWriteStep_frame h
  | peer bs =>
    obtain ⟨x, hx⟩ := peer_receives s bs
    cases hx.symm.trans h
    exact ⟨rfl, rfl, rfl⟩
  | hostRead n | clock | rst =>
    cases h
    exact ⟨rfl, rfl, rfl⟩

/-- Settles O49, by the agent that moves. -/
theorem historyGrowsByOne : Obligations.HistoryGrowsByOne := by
  intro s u t m hm hs
  rw [step_of_nextTurn hm] at hs
  obtain ⟨ms, d, hu⟩ := nextTurn_snd hm
  have hhist : u.hist = s.hist := by rw [hu]
  rw [← hhist]
  obtain ⟨-, -, hf⟩ := runTurn_frame hs
  cases m with
  | engine a => exact .inr (.inl ⟨⟨a, rfl⟩, hf⟩)
  | rst => exact .inl ⟨rfl, hf⟩
  | hostWrite n v | hostRead n | peer bs | clock => exact .inr (.inr ⟨by simp, by simp, hf⟩)

end Sys2Proof.Machine
end

section
/-!
SUPPORT. Every await ends (R150): O28.
-/

namespace Sys2Proof.Machine

/-! ## The collector's part of the invariant, by mode -/

theorem collectorOk_eq {s : State} (hm : s.cmode = .eq) :
    CollectorOk s ↔
      s.step = .hs .await ∧ s.cidx = 0 ∧ s.cneed = 1 ∧ s.cexp = Config.hsAckByte := by
  unfold CollectorOk; rw [hm]

theorem collectorOk_ack {s : State} (hm : s.cmode = .ack) :
    CollectorOk s ↔
      (s.step = .ld .announceAwait ∨ s.step = .ld .uploadAwait) ∧ s.cidx = 0 ∧ s.cneed = 1 := by
  unfold CollectorOk; rw [hm]

theorem collectorOk_count {s : State} (hm : s.cmode = .count) :
    CollectorOk s ↔ s.step = .ld .execAwait ∧ s.cidx < s.cneed ∧ s.cneed = 11 := by
  unfold CollectorOk; rw [hm]

theorem collectorOk_read {s : State} (hm : s.cmode = .frame) (hsh : s.cshape = .read) :
    CollectorOk s ↔
      s.step = .rd .await ∧
        ((s.cidx < 8 ∧ s.cneed = 8) ∨
          (8 ≤ s.cidx ∧ s.cidx < s.cneed ∧ s.cneed = 8 + s.chunkLen.toNat + 1)) := by
  unfold CollectorOk; rw [hm, hsh]

theorem collectorOk_ack9 {s : State} (hm : s.cmode = .frame) (hsh : s.cshape = .ack9) :
    CollectorOk s ↔
      (s.step = .wr .await ∨ s.step = .er .await) ∧ s.cidx < s.cneed ∧ s.cneed = 9 := by
  unfold CollectorOk; rw [hm, hsh]

/-! ## What an await needs of the invariant -/

/-- What the collector needs so that its await ends: the await is its step's own and its bytes stay in bounds, a
frame fits in `rxbuf`, and a START is ignored while it runs (R27, R43, R44, R142). -/
structure AwaitOk (s : State) : Prop where
  collector : CollectorOk s
  fits : s.cmode ≠ .idle → s.cneed ≤ 521
  busy : s.busy = true ↔ s.step ≠ .idle

theorem AwaitOk.of_idle {s : State} (hc : s.cmode = .idle) (hb : s.busy = true ↔ s.step ≠ .idle) :
    AwaitOk s where
  collector := by unfold CollectorOk; rw [hc]; trivial
  fits := fun h => absurd hc h
  busy := hb

theorem Inv.awaitOk {s : State} (h : Inv s) : AwaitOk s where
  collector := h.collector
  busy := h.flags.1
  fits := by
    intro hc
    have hcol := h.collector
    cases hm : s.cmode with
    | idle => exact absurd hm hc
    | eq => have := (collectorOk_eq hm).1 hcol; omega
    | ack => have := (collectorOk_ack hm).1 hcol; omega
    | count => have := (collectorOk_count hm).1 hcol; omega
    | frame =>
      cases hsh : s.cshape with
      | read =>
        obtain ⟨hs, hb⟩ := (collectorOk_read hm hsh).1 hcol
        obtain ⟨-, hl, -⟩ := h.chunk_facts (by rw [hs]; rfl)
        omega
      | ack9 => have := (collectorOk_ack9 hm hsh).1 hcol; omega

/-- An active await stands at an await step, and still needs a byte (R142, R150). -/
theorem CollectorOk.active {s : State} (h : CollectorOk s) (hc : s.cmode ≠ .idle) :
    (awaitMode s.step).isSome = true ∧ s.cidx < s.cneed ∧ s.cidx < s.awaitLen := by
  unfold State.awaitLen
  cases hm : s.cmode with
  | idle => exact absurd hm hc
  | eq =>
    obtain ⟨hs, h0, hn, -⟩ := (collectorOk_eq hm).1 h
    simp [hs, h0, hn, awaitMode]
  | ack =>
    obtain ⟨hs, h0, hn⟩ := (collectorOk_ack hm).1 h
    rcases hs with hs | hs <;> simp [hs, h0, hn, awaitMode]
  | count =>
    obtain ⟨hs, hlt, hn⟩ := (collectorOk_count hm).1 h
    exact ⟨by simp [hs, awaitMode], hlt, by simp; omega⟩
  | frame =>
    cases hsh : s.cshape with
    | read =>
      obtain ⟨hs, hb⟩ := (collectorOk_read hm hsh).1 h
      exact ⟨by simp [hs, awaitMode], by omega, by simp; omega⟩
    | ack9 =>
      obtain ⟨hs, hlt, hn⟩ := (collectorOk_ack9 hm hsh).1 h
      exact ⟨by rcases hs with hs | hs <;> simp [hs, awaitMode], hlt, by simp; omega⟩

theorem AwaitOk.cidx_lt {s : State} (h : AwaitOk s) (hc : s.cmode ≠ .idle) : s.cidx < 521 := by
  have := h.fits hc
  have := (h.collector.active hc).2.1
  omega

theorem AwaitOk.step_ne_idle {s : State} (h : AwaitOk s) (hc : s.cmode ≠ .idle) : s.step ≠ .idle := by
  intro hs
  have hm := (h.collector.active hc).1
  simp [hs, awaitMode] at hm

/-! ## One byte of an await -/

/-- A byte that is counted and does not end the await (R146, R147). -/
def State.counted (m : Memory) (n : Nat) (s : State) : State :=
  { s with rxbuf := m, cidx := s.cidx + 1, cneed := n }

/-- An action that ends the await, with its result (R149). -/
def Act.EndsAwait (a : Act) : Prop :=
  (∃ u, a = .ok u ∧ u.cmode = .idle ∧ u.cresult = .success) ∨
    ∃ c u, a = .fail c u ∧ u.cresult = .fail c

theorem doneAwait_ends (s : State) : (doneAwait s).EndsAwait := .inl ⟨_, rfl, rfl, rfl⟩

theorem failAwait_ends (c : Cause) (s : State) : (failAwait c s).EndsAwait := .inr ⟨c, _, rfl, rfl⟩

/-- A byte ends the await or is counted, and the await that goes on is still in bounds (R144 to R147). -/
theorem AwaitOk.accept_ends_or_counts {s : State} (h : AwaitOk s) (hc : s.cmode ≠ .idle) (b : Byte) :
    (accept b s).EndsAwait ∨
      ∃ m n, accept b s = .hold (s.counted m n) ∧ AwaitOk (s.counted m n) := by
  have hfit := h.fits hc
  cases hm : s.cmode with
  | idle => exact absurd hm hc
  | eq =>
    left
    rw [accept_eq hm, acceptEq]
    split_ifs
    · exact doneAwait_ends _
    · exact failAwait_ends _ _
  | ack =>
    left
    rw [accept_ack hm, acceptAck]
    split_ifs
    · exact doneAwait_ends _
    · exact failAwait_ends _ _
  | count =>
    rw [accept_count hm, acceptCount]
    split_ifs with hlast
    · exact .inl (doneAwait_ends _)
    · obtain ⟨hs, hlt, hn⟩ := (collectorOk_count hm).1 h.collector
      refine .inr ⟨s.rxbuf, s.cneed, rfl, ?_, fun _ => hfit, h.busy⟩
      exact (collectorOk_count (s := s.counted _ _) hm).2 ⟨hs, by simp only [State.counted]; omega, hn⟩
  | frame =>
    rw [accept_frame hm]
    obtain ⟨u, rfl, ⟨c, -, e, -⟩ | ⟨-, -, ⟨hsh, h7, -, hl, e⟩ | ⟨h7, hn, e⟩ | ⟨-, -, -, e⟩⟩⟩ :=
      acceptFrame_cases b s (h.cidx_lt hc) hfit
    · exact .inl (e ▸ failAwait_ends _ _)
    · obtain ⟨hs, -⟩ := (collectorOk_read hm hsh).1 h.collector
      refine .inr ⟨_, _, e, ?_, fun _ => ?_, h.busy⟩
      · exact (collectorOk_read (s := s.counted _ _) hm hsh).2
          ⟨hs, .inr ⟨by simp only [State.counted]; omega, by simp only [State.counted]; omega, rfl⟩⟩
      · simp only [State.counted]
        omega
    · refine .inr ⟨_, _, e, ?_, fun _ => hfit, h.busy⟩
      cases hsh : s.cshape with
      | read =>
        obtain ⟨hs, hb⟩ := (collectorOk_read hm hsh).1 h.collector
        have hne : s.cidx ≠ 7 := fun h => h7 ⟨hsh, h⟩
        exact (collectorOk_read (s := s.counted _ _) hm hsh).2
          ⟨hs, by simp only [State.counted]; omega⟩
      | ack9 =>
        obtain ⟨hs, hlt, h9⟩ := (collectorOk_ack9 hm hsh).1 h.collector
        exact (collectorOk_ack9 (s := s.counted _ _) hm hsh).2
          ⟨hs, by simp only [State.counted]; omega, h9⟩
    · exact .inl (e ▸ doneAwait_ends _)

/-- A poll that brings a byte takes the head of the queue to the accept (R133, R143). -/
theorem collect_byte {s : State} {b : Byte} {q : List Byte} (ha : s.ans.poll = .byte)
    (hq : s.rxq = b :: q) :
    collect s = accept b { s with hist := s.hist ++ [.poll (.byte b)], rxq := q } := by
  unfold collect pollCall
  rw [ha, hq]
  rfl

/-- What the collect step of an active await can do: end it, hold it before its deadline, or count a byte; or
the poll's answer is not legal (R143, R149). -/
theorem AwaitOk.collect_ends_or_waits {s : State} (h : AwaitOk s) (hc : s.cmode ≠ .idle) :
    (collect s).EndsAwait ∨ (s.now - s.t0 < s.ctimeout ∧ collect s = .hold s) ∨
      (∃ e q m n, collect s = .hold ({ s with hist := e, rxq := q }.counted m n) ∧
        AwaitOk ({ s with hist := e, rxq := q }.counted m n)) ∨
      collect s = .refuse .pollAnswerIllegal := by
  rcases collect_cases s with e | ⟨-, e⟩ | ⟨ht, e⟩ | ⟨b, q, -, e⟩ | e
  · exact .inl (e ▸ failAwait_ends _ _)
  · exact .inl (e ▸ failAwait_ends _ _)
  · exact .inr (.inl ⟨ht, e⟩)
  · have hok : AwaitOk { s with hist := s.hist ++ [.poll (.byte b)], rxq := q } := { h with }
    rcases hok.accept_ends_or_counts hc b with he | ⟨m, n, hm, hn⟩
    · exact .inl (e ▸ he)
    · exact .inr (.inr (.inl ⟨_, q, m, n, e.trans hm, hn⟩))
  · exact .inr (.inr (.inr e))

/-! ## The end of an await -/

/-- The step after an await is another step (R207). -/
theorem successor_ne_await {st : SeqStep} (h : (awaitMode st).isSome = true) (u : State) :
    successor u st ≠ st := by
  cases st with
  | hs x => cases x <;> simp_all [awaitMode, successor]
  | ld x => cases x <;> simp_all [awaitMode, successor]
  | rd x => cases x <;> simp_all [awaitMode, successor]
  | wr x => cases x <;> simp_all [awaitMode, successor]
  | er x => cases x <;> simp_all [awaitMode, successor]
  | idle | range | openPort | opDispatch | td x => simp [awaitMode] at h

/-- The await has ended with a result, and the sequencer has left its step (R149). -/
structure AwaitEnded (s t : State) : Prop where
  cmode : t.cmode = .idle
  cresult : t.cresult ≠ .none
  step : t.step ≠ s.step

/-- An action that ends the await at its step settles in a state that has left it (R149, R207, R246). -/
theorem Act.EndsAwait.settle {s : State} {a : Act} (h : a.EndsAwait)
    (hst : (awaitMode s.step).isSome = true) :
    ∃ t, a.settle s.step (State.finishAwait s.step) = .next t ∧ AwaitEnded s t := by
  rcases h with ⟨u, rfl, hm, hr⟩ | ⟨c, u, rfl, hr⟩
  · obtain ⟨x, hx⟩ := finishAwait_await hst u
    refine ⟨_, rfl, ?_⟩
    rw [hx]
    exact ⟨hm, by simp [State.advance, hr], successor_ne_await hst _⟩
  · refine ⟨_, rfl, rfl, by simp [hr], ?_⟩
    intro hs
    rw [State.raise_step] at hs
    simp [← hs, awaitMode] at hst

/-! ## As many bytes as an await needs end it -/

/-- One engine step whose poll brings a byte ends the await or counts the byte (R143, R150). -/
theorem AwaitOk.step_byte {s : State} {a : Config.Answers} {ts : List Config.Turn} {b : Byte}
    {q : List Byte} (h : AwaitOk s) (hc : s.cmode ≠ .idle) (ha : a.poll = .byte)
    (hi : s.inputs = .engine a :: ts) (hq : s.rxq = b :: q) :
    (∃ t, step s = .next t ∧ AwaitEnded s t) ∨
      ∃ e m n,
        step s =
          .next ({ s with inputs := ts, ans := a, hist := e, rxq := q }.counted m n) ∧
        AwaitOk ({ s with inputs := ts, ans := a, hist := e, rxq := q }.counted m n) := by
  have hn : s.nextTurn = (.engine a, { s with inputs := ts }) := by rw [State.nextTurn, hi]
  have hstep : step s = (collect { s with inputs := ts, ans := a }).settle s.step
      (State.finishAwait s.step) :=
    (step_of_nextTurn hn).trans
      (engineStep_collect (s := { s with inputs := ts, ans := a }) (h.step_ne_idle hc) hc)
  have hbyte := collect_byte (s := { s with inputs := ts, ans := a }) ha hq
  rw [hstep, hbyte]
  have hok : AwaitOk { s with
      inputs := ts, ans := a, hist := s.hist ++ [.poll (.byte b)], rxq := q } := { h with }
  rcases hok.accept_ends_or_counts hc b with he | ⟨m, n, hm, hn⟩
  · exact .inl (he.settle (h.collector.active hc).1)
  · exact .inr ⟨_, m, n, by rw [hm]; rfl, hn⟩

/-- As many polls that bring a byte as the await still needs end it, by induction on them (R150). -/
theorem AwaitOk.bounded {as : List Config.Answers} : ∀ {s : State} {ms : List Config.Turn},
    AwaitOk s → s.cmode ≠ .idle → (∀ a ∈ as, a.poll = .byte) → s.cidx + as.length = s.awaitLen →
    as.length ≤ s.rxq.length → s.inputs = as.map .engine ++ ms →
    ∃ (k : Nat) (t : State), 1 ≤ k ∧ k ≤ as.length ∧ Host.Core.run core k s = .next t ∧
      AwaitEnded s t := by
  induction as with
  | nil =>
    intro s ms h hc _ hlen
    have := (h.collector.active hc).2.2
    simp at hlen
    omega
  | cons a as ih =>
    intro s ms h hc hp hlen hq hi
    cases hrx : s.rxq with
    | nil => simp [hrx] at hq
    | cons b q =>
      rcases h.step_byte hc (hp a (by simp)) hi hrx with ⟨t, ht, he⟩ | ⟨e, m, n, hu, hok⟩
      · exact ⟨1, t, le_refl 1, by simp, run_of_next ht 0, he⟩
      · obtain ⟨k, t, -, hk, hr, he⟩ := ih (ms := ms) hok hc (fun x hx => hp x (by simp [hx]))
          (by simpa [State.counted, State.awaitLen, Nat.add_assoc, Nat.add_comm 1] using hlen)
          (by simpa [State.counted, hrx] using hq) rfl
        exact ⟨k + 1, t, by omega, by simpa using hk, (run_of_next hu k).trans hr,
          he.cmode, he.cresult, he.step⟩

end Sys2Proof.Machine
end

section
/-!
SUPPORT. The Clock moves again and again, and no fair execution stays in an await (R12, R150): the rest of O28.
-/

namespace Sys2Proof.Machine

/-! ## The Clock moves again -/

/-- A run of one more step takes that step first. -/
theorem run_succ_next {k : Nat} {s t : State} (h : Host.Core.run core (k + 1) s = .next t) :
    ∃ v, step s = .next v ∧ Host.Core.run core k v = .next t := by
  cases hs : step s with
  | next v => exact ⟨v, rfl, (run_of_next hs k).symm.trans h⟩
  | fault f => cases (run_of_fault hs k).symm.trans h
  | refused r => cases (run_of_refused hs k).symm.trans h

/-- A step takes the head of the schedule off, and leaves the rest (R10). -/
theorem step_inputs_cons {s t : State} {m : Config.Turn} {ms : List Config.Turn}
    (hi : s.inputs = m :: ms) (h : step s = .next t) : t.inputs = ms := by
  have hn : s.nextTurn = (m, { s with inputs := ms }) := by rw [State.nextTurn, hi]
  rw [step_of_nextTurn hn] at h
  exact (runTurn_frame h).1

/-- With nothing scheduled a step takes one free draw (R10, R12). -/
theorem step_inputs_nil {s t : State} (hi : s.inputs = []) (h : step s = .next t) :
    t.inputs = [] ∧ t.draws = s.draws + 1 := by
  have hn : s.nextTurn = (Config.draw s.draws, { s with draws := s.draws + 1 }) := by
    rw [State.nextTurn, hi]
  rw [step_of_nextTurn hn] at h
  obtain ⟨hi', hd, -⟩ := runTurn_frame h
  exact ⟨hi'.trans hi, hd⟩

/-- After `n` free draws the next one is the `n`-th from here. -/
theorem nextTurn_after_draws {n : Nat} : ∀ {s t : State}, s.inputs = [] →
    Host.Core.run core n s = .next t → ∃ u, t.nextTurn = (Config.draw (s.draws + n), u) := by
  induction n with
  | zero =>
    intro s t hi h
    cases h
    exact ⟨_, by rw [State.nextTurn, hi]; rfl⟩
  | succ n ih =>
    intro s t hi h
    obtain ⟨v, hv, hr⟩ := run_succ_next h
    obtain ⟨hi', hd⟩ := step_inputs_nil hi hv
    obtain ⟨u, hu⟩ := ih hi' hr
    exact ⟨u, by rw [hu, hd, Nat.add_assoc, Nat.add_comm 1]⟩

/-- From every state the run stops or the Clock moves again, by induction on the schedule and then by the
draws' fairness (R12). -/
theorem clock_moves_again {ms : List Config.Turn} : ∀ {s : State}, s.inputs = ms →
    ∃ k : Nat, ∀ t : State, Host.Core.run core k s = .next t → ∃ u, t.nextTurn = (.clock, u) := by
  induction ms with
  | nil =>
    intro s hi
    obtain ⟨n, hn⟩ := Config.draw_clock s.draws
    refine ⟨n, fun t ht => ?_⟩
    rw [← hn]
    exact nextTurn_after_draws hi ht
  | cons m ms ih =>
    intro s hi
    cases hs : step s with
    | next v =>
      obtain ⟨k, hk⟩ := ih (step_inputs_cons hi hs)
      exact ⟨k + 1, fun t ht => hk t ((run_of_next hs k).symm.trans ht)⟩
    | fault f => exact ⟨1, fun t ht => nomatch (run_of_fault hs 0).symm.trans ht⟩
    | refused r => exact ⟨1, fun t ht => nomatch (run_of_refused hs 0).symm.trans ht⟩

/-! ## Every move keeps `AwaitOk` -/

/-- An action that settles at a step of a session stays in the session (R192, R207). -/
theorem Settled.busy {s t : State} (h : Settled s t) (hs : s.step ≠ .idle) (hb : s.busy = true) :
    t.busy = true ∧ t.step ≠ .idle := by
  obtain ⟨u, hu, rfl | ⟨hf, rfl⟩ | ⟨c, rfl⟩⟩ := h
  · exact ⟨hu.busy.trans hb, by rw [hu.step]; exact hs⟩
  · exact ⟨hu.busy.trans hb, successor_ne_idle hf u⟩
  · exact ⟨hu.busy.trans hb, by simp⟩

/-- An action that settles with the collector idle leaves it idle. -/
theorem Settled.cmode {s t : State} (h : Settled s t) (hc : s.cmode = .idle) : t.cmode = .idle := by
  obtain ⟨u, hu, rfl | ⟨-, rfl⟩ | ⟨c, rfl⟩⟩ := h
  · exact hu.cmode.elim (·.trans hc) id
  · exact hu.cmode.elim (·.trans hc) id
  · exact State.raise_cmode ..

/-- An engine step keeps BUSY set exactly while a session runs (R28, R192). -/
theorem engineStep_busy {s t : State} (h : engineStep s = .next t)
    (hb : s.busy = true ↔ s.step ≠ .idle) : t.busy = true ↔ t.step ≠ .idle := by
  by_cases hs : s.step = .idle
  · cases (engineStep_idle hs).symm.trans h
    exact hb
  rcases engineStep_cases h with ⟨-, rfl⟩ | ⟨-, m, sh, budget, -, -, -, e⟩ | ⟨-, rfl⟩ | ht
  · exact hb
  · rw [e]
    exact hb
  · simp [State.endSession]
  · exact iff_of_true (ht.busy hs (hb.2 hs)).1 (ht.busy hs (hb.2 hs)).2

/-- The await steps by the mode and shape of their await (R196 to R205). -/
theorem awaitMode_cases {st : SeqStep} {m : CMode} {sh : Shape} (h : awaitMode st = some (m, sh)) :
    (m = .eq ∧ st = .hs .await) ∨ (m = .ack ∧ (st = .ld .announceAwait ∨ st = .ld .uploadAwait)) ∨
      (m = .count ∧ st = .ld .execAwait) ∨ (m = .frame ∧ sh = .read ∧ st = .rd .await) ∨
      (m = .frame ∧ sh = .ack9 ∧ (st = .wr .await ∨ st = .er .await)) := by
  unfold awaitMode at h
  split at h <;> cases h <;> simp

/-- An await's entry fits its step (R142). -/
theorem Entered.awaitOk {s t : State} (h : Entered s t) (hb : t.busy = true ↔ t.step ≠ .idle) :
    AwaitOk t := by
  obtain ⟨m, sh, budget, hm, hsh, hx, e⟩ := h
  have hstep : t.step = s.step := by rw [e]; rfl
  have hmode : t.cmode = m := by rw [e]; rfl
  have hidx : t.cidx = 0 := by rw [e]; rfl
  have hneed : t.cneed = m.need t.cshape := by rw [e]; rfl
  rw [← hstep] at hm
  rcases awaitMode_cases hm with
    ⟨rfl, hs⟩ | ⟨rfl, hs⟩ | ⟨rfl, hs⟩ | ⟨rfl, rfl, hs⟩ | ⟨rfl, rfl, hs⟩
  · have hn : t.cneed = 1 := hneed
    exact ⟨(collectorOk_eq hmode).2 ⟨hs, hidx, hn, hx rfl⟩, fun _ => by omega, hb⟩
  · have hn : t.cneed = 1 := hneed
    exact ⟨(collectorOk_ack hmode).2 ⟨hs, hidx, hn⟩, fun _ => by omega, hb⟩
  · have hn : t.cneed = 11 := hneed
    exact ⟨(collectorOk_count hmode).2 ⟨hs, by omega, hn⟩, fun _ => by omega, hb⟩
  · have hn : t.cneed = 8 := by rw [hneed, hsh rfl]; rfl
    exact ⟨(collectorOk_read hmode (hsh rfl)).2 ⟨hs, by omega⟩, fun _ => by omega, hb⟩
  · have hn : t.cneed = 9 := by rw [hneed, hsh rfl]; rfl
    exact ⟨(collectorOk_ack9 hmode (hsh rfl)).2 ⟨hs, by omega, hn⟩, fun _ => by omega, hb⟩

/-- What an engine step does to an active await: it ends, it holds before its deadline, or one byte is counted
(R143). -/
theorem AwaitOk.engineStep_ends_or_waits {s t : State} (h : AwaitOk s) (hc : s.cmode ≠ .idle)
    (hs : engineStep s = .next t) :
    t.cmode = .idle ∨ (t = s ∧ s.now - s.t0 < s.ctimeout) ∨
      ∃ e q m n, t = { s with hist := e, rxq := q }.counted m n ∧ AwaitOk t := by
  rw [engineStep_collect (h.step_ne_idle hc) hc] at hs
  rcases h.collect_ends_or_waits hc with he | ⟨ht, e⟩ | ⟨ev, q, m, n, e, hok⟩ | e
  · obtain ⟨v, hv, hend⟩ := he.settle (h.collector.active hc).1
    cases hv.symm.trans hs
    exact .inl hend.cmode
  · rw [e] at hs
    cases hs
    exact .inr (.inl ⟨rfl, ht⟩)
  · rw [e] at hs
    cases hs
    exact .inr (.inr ⟨ev, q, m, n, rfl, hok⟩)
  · rw [e] at hs
    cases hs

theorem engineStep_awaitOk {s t : State} (h : AwaitOk s) (hs : engineStep s = .next t) : AwaitOk t := by
  have hb := engineStep_busy hs h.busy
  by_cases hc : s.cmode = .idle
  · rcases engineStep_cases hs with ⟨-, rfl⟩ | ⟨-, ht⟩ | ⟨-, rfl⟩ | ht
    · exact h
    · exact ht.awaitOk hb
    · exact .of_idle hc hb
    · exact .of_idle (ht.cmode hc) hb
  · rcases h.engineStep_ends_or_waits hc hs with ht | ⟨rfl, -⟩ | ⟨-, -, -, -, -, ht⟩
    · exact .of_idle ht hb
    · exact h
    · exact ht

/-- While a session runs a host write changes nothing (R22, R27, R276). -/
theorem hostWriteStep_busy {s : State} (h : s.busy = true) (n : Nat) (v : Word) :
    hostWriteStep n v s = .next s := by
  simp [hostWriteStep_eq, State.start, State.hostStore, h]

/-- START finds the collector idle, or is ignored (R27, R193, R276). -/
theorem AwaitOk.start {s : State} (h : AwaitOk s) (op : Op) : AwaitOk (s.start op) := by
  by_cases hb : s.busy = true
  · rw [State.start, if_pos hb]
    exact h
  · have hc : s.cmode = .idle := by
      by_contra hc
      exact hb (h.busy.2 (h.step_ne_idle hc))
    rw [State.start, if_neg hb]
    exact .of_idle hc (by simp)

theorem AwaitOk.hostStore {s : State} (h : AwaitOk s) (n : Nat) (v : Word) :
    AwaitOk (s.hostStore n v) := by
  unfold State.hostStore
  split_ifs <;> exact { h with }

theorem hostWriteStep_awaitOk {n : Nat} {v : Word} {s t : State} (h : AwaitOk s)
    (hs : hostWriteStep n v s = .next t) : AwaitOk t := by
  rw [hostWriteStep_eq] at hs
  split_ifs at hs <;> cases hs
  · exact h.start _
  · exact h.hostStore n v

theorem runTurn_awaitOk {m : Config.Turn} {s t : State} (h : AwaitOk s)
    (hs : runTurn m s = .next t) : AwaitOk t := by
  cases m with
  | engine a => exact engineStep_awaitOk (s := { s with ans := a }) { h with } hs
  | hostWrite n v => exact hostWriteStep_awaitOk h hs
  | hostRead n => cases hs; exact { h with }
  | peer bs =>
    obtain ⟨x, hx⟩ := peer_receives s bs
    cases hx.symm.trans hs
    exact { h with }
  | clock => cases hs; exact { h with }
  | rst =>
    cases hs
    exact .of_idle rfl (by simp [State.applyReset, State.resetWith])

/-! ## An await that goes on -/

/-- The same await, later: its start and budget are as they were, and neither the clock nor the count of bytes
went back (R43, R143). -/
structure Continues (s t : State) : Prop where
  t0 : t.t0 = s.t0
  ctimeout : t.ctimeout = s.ctimeout
  now : s.now ≤ t.now
  cidx : s.cidx ≤ t.cidx

theorem Continues.refl (s : State) : Continues s s := ⟨rfl, rfl, le_refl _, le_refl _⟩

theorem Continues.trans {s t u : State} (h : Continues s t) (h' : Continues t u) : Continues s u :=
  ⟨h'.t0.trans h.t0, h'.ctimeout.trans h.ctimeout, h.now.trans h'.now, h.cidx.trans h'.cidx⟩

/-- A move that leaves an await active goes on with it (R27, R143). -/
theorem AwaitOk.continues {m : Config.Turn} {s t : State} (h : AwaitOk s) (hc : s.cmode ≠ .idle)
    (hs : runTurn m s = .next t) (ht : t.cmode ≠ .idle) : Continues s t := by
  cases m with
  | engine a =>
    have ha : AwaitOk { s with ans := a } := { h with }
    rcases ha.engineStep_ends_or_waits hc hs with hi | ⟨rfl, -⟩ | ⟨e, q, m, n, rfl, -⟩
    · exact absurd hi ht
    · exact { Continues.refl s with }
    · exact { Continues.refl s with cidx := Nat.le_succ _ }
  | hostWrite n v =>
    cases (hostWriteStep_busy (h.busy.2 (h.step_ne_idle hc)) n v).symm.trans hs
    exact .refl s
  | hostRead n => cases hs; exact { Continues.refl s with }
  | peer bs =>
    obtain ⟨x, hx⟩ := peer_receives s bs
    cases hx.symm.trans hs
    exact { Continues.refl s with }
  | clock => cases hs; exact { Continues.refl s with now := Nat.le_succ _ }
  | rst => cases hs; exact absurd rfl ht

theorem clock_ticks {s t : State} (h : runTurn .clock s = .next t) : t.now = s.now + 1 := by
  cases h
  rfl

/-- Behind the deadline an engine step that leaves the await active counts a byte (R143). -/
theorem AwaitOk.counts_behind_deadline {a : Config.Answers} {s t : State} (h : AwaitOk s)
    (hc : s.cmode ≠ .idle) (hd : s.ctimeout ≤ s.now - s.t0) (hs : runTurn (.engine a) s = .next t)
    (ht : t.cmode ≠ .idle) : s.cidx < t.cidx := by
  have ha : AwaitOk { s with ans := a } := { h with }
  rcases ha.engineStep_ends_or_waits hc hs with hi | ⟨-, hlt⟩ | ⟨e, q, m, n, rfl, -⟩
  · exact absurd hi ht
  · exact absurd hlt (Nat.not_lt.2 hd)
  · exact Nat.lt_succ_self _

/-! ## Fair executions -/

/-- What never falls, and rises again and again, passes every bound. -/
theorem exceeds_every_bound {f : Nat → Nat} {n : Nat} (hmono : ∀ m, n ≤ m → f m ≤ f (m + 1))
    (hgrow : ∀ m, n ≤ m → ∃ k, m ≤ k ∧ f k < f (k + 1)) (B : Nat) : ∃ m, n ≤ m ∧ B ≤ f m := by
  induction B with
  | zero => exact ⟨n, le_refl n, Nat.zero_le _⟩
  | succ B ih =>
    obtain ⟨m, hm, hB⟩ := ih
    obtain ⟨k, hk, hlt⟩ := hgrow m hm
    have hle : f m ≤ f k := Nat.rel_of_forall_rel_succ_of_le_of_le (· ≤ ·) hmono hm hk
    exact ⟨k + 1, by omega, by omega⟩

/-- In a fair execution the collector is idle again and again: else the Clock passes the deadline, and then
every engine step counts a byte, past what fits in a frame (R12, R143, R150). -/
theorem fair_execution_idles {σ : Nat → Config.Turn} {τ : Nat → State} (hx : Execution σ τ)
    (hclock : ClockFair σ) (hengine : EngineFair σ) (h0 : AwaitOk (τ 0)) (n : Nat) :
    ∃ m, n ≤ m ∧ (τ m).cmode = .idle := by
  by_contra hcon
  have hact : ∀ m, n ≤ m → (τ m).cmode ≠ .idle := fun m hm hi => hcon ⟨m, hm, hi⟩
  have hrun : ∀ m, runTurn (σ m) (τ m) = .next (τ (m + 1)) := hx
  have hok : ∀ m, AwaitOk (τ m) := by
    intro m
    induction m with
    | zero => exact h0
    | succ m ih => exact runTurn_awaitOk ih (hrun m)
  have hgo : ∀ m, n ≤ m → Continues (τ m) (τ (m + 1)) := fun m hm =>
    (hok m).continues (hact m hm) (hrun m) (hact (m + 1) (by omega))
  have hlater : ∀ {a b : Nat}, n ≤ a → a ≤ b → Continues (τ a) (τ b) := by
    intro a b ha hab
    induction b, hab using Nat.le_induction with
    | base => exact .refl _
    | succ b hb ih => exact ih.trans (hgo b (by omega))
  have htick : ∀ m, n ≤ m → ∃ k, m ≤ k ∧ (τ k).now < (τ (k + 1)).now := by
    intro m _
    obtain ⟨k, hk, hc⟩ := hclock m
    have hnext := hrun k
    rw [hc] at hnext
    exact ⟨k, hk, by rw [clock_ticks hnext]; exact Nat.lt_succ_self _⟩
  obtain ⟨d, hd, hdead⟩ := exceeds_every_bound (f := fun m => (τ m).now)
    (fun m hm => (hgo m hm).now) htick ((τ n).t0 + (τ n).ctimeout)
  have hcount : ∀ m, d ≤ m → ∃ k, m ≤ k ∧ (τ k).cidx < (τ (k + 1)).cidx := by
    intro m hm
    obtain ⟨k, a, hk, he⟩ := hengine m
    have hnext := hrun k
    rw [he] at hnext
    have hsame := hlater (le_refl n) (show n ≤ k by omega)
    have hnow := (hlater hd (show d ≤ k by omega)).now
    refine ⟨k, hk, (hok k).counts_behind_deadline (hact k (by omega)) ?_ hnext
      (hact (k + 1) (by omega))⟩
    rw [hsame.t0, hsame.ctimeout]
    omega
  obtain ⟨m, hm, hbig⟩ := exceeds_every_bound (f := fun m => (τ m).cidx)
    (fun m hm => (hgo m (by omega)).cidx) hcount 521
  have := (hok m).cidx_lt (hact m (by omega))
  omega

/-- Settles O28: the bounded clause by induction on the polls, the Clock's by induction on the schedule, and the
fair executions by the deadline. -/
theorem awaitEndsInBoundedPolls : Obligations.AwaitEndsInBoundedPolls := by
  refine ⟨?bounded, fun s => clock_moves_again rfl, ?fair⟩
  case bounded =>
    intro s as ms h hc hp hlen hq hi
    obtain ⟨k, t, h1, hk, hr, he⟩ := h.awaitOk.bounded hc hp hlen hq hi
    exact ⟨k, t, h1, hk, hr, he.cmode, he.cresult, he.step⟩
  case fair =>
    intro σ τ hx hclock hengine h0
    exact fair_execution_idles hx hclock hengine h0.awaitOk

end Sys2Proof.Machine
end

section
/-!
SUPPORT. The frame buffers as memories, and what stands in the registers (R22 to R30, R44, R49): O40, O37, O38,
O39, O43.
-/

namespace Sys2Proof.Machine

/-! ## Equal contents are equal buffers -/

theorem Memory.read_cons_self (k : Nat) (v : Byte) (m : Memory) : Memory.read ((k, v) :: m) k = v :=
  if_pos rfl

theorem Memory.read_cons_other {k x : Nat} (h : k ≠ x) (v : Byte) (m : Memory) :
    Memory.read ((k, v) :: m) x = m.read x := if_neg h

/-- An address below every listed one reads blank. -/
theorem Memory.read_below {m : Memory} {a : Nat} (h : ∀ c ∈ m, a < c.1) : m.read a = Memory.blank := by
  induction m with
  | nil => rfl
  | cons c m ih =>
    obtain ⟨k, v⟩ := c
    have hk : a < k := h (k, v) (by simp)
    rw [Memory.read_cons_other (by omega)]
    exact ih fun c hc => h c (by simp [hc])

/-- Where two canonical buffers read alike, the first address that one lists is not below the other's: it would
read as a stored byte here and blank there. -/
theorem Memory.not_lt_of_read_eq {k k' : Nat} {v v' : Byte} {m m' : Memory}
    (h : Memory.wf ((k, v) :: m) = true) (h' : Memory.wf ((k', v') :: m') = true)
    (hr : ∀ x, Memory.read ((k, v) :: m) x = Memory.read ((k', v') :: m') x) : ¬ k < k' := by
  obtain ⟨hv, -⟩ := Memory.wf_cons.1 h
  obtain ⟨-, -, hlt', -⟩ := Memory.wf_cons.1 h'
  intro hkk
  refine hv ?_
  rw [← Memory.read_cons_self k v m, hr k, Memory.read_cons_other (by omega)]
  exact Memory.read_below fun c hc => lt_trans hkk (hlt' c hc)

/-- Two canonical buffers that read alike are the same list, by induction on both (R44). -/
theorem Memory.ext_of_wf {m : Memory} : ∀ {m' : Memory}, m.wf = true → m'.wf = true →
    (∀ x, m.read x = m'.read x) → m = m' := by
  have hstored : ∀ {k : Nat} {v : Byte} {m : Memory}, Memory.wf ((k, v) :: m) = true →
      Memory.read ((k, v) :: m) k ≠ Memory.blank := fun h => by
    rw [Memory.read_cons_self]
    exact (Memory.wf_cons.1 h).1
  induction m with
  | nil =>
    rintro (_ | ⟨⟨k, v⟩, m'⟩) - h' hr
    · rfl
    · exact absurd (hr k).symm (hstored h')
  | cons c m ih =>
    obtain ⟨k, v⟩ := c
    rintro (_ | ⟨⟨k', v'⟩, m'⟩) h h' hr
    · exact absurd (hr k) (hstored h)
    · have hk : k = k' := Nat.le_antisymm (Nat.not_lt.1 (Memory.not_lt_of_read_eq h' h fun x => (hr x).symm))
        (Nat.not_lt.1 (Memory.not_lt_of_read_eq h h' hr))
      subst hk
      have hv : v = v' := by simpa only [Memory.read_cons_self] using hr k
      obtain ⟨-, -, hlt, hm⟩ := Memory.wf_cons.1 h
      obtain ⟨-, -, hlt', hm'⟩ := Memory.wf_cons.1 h'
      rw [hv, ih hm hm' fun x => ?_]
      by_cases hx : k = x
      · rw [← hx, Memory.read_below hlt, Memory.read_below hlt']
      · simpa only [Memory.read_cons_other hx] using hr x

/-- Settles O40, from the laws of `Memory.read` after a write and the canonical form. -/
theorem bufferMemory : Obligations.BufferMemory := by
  refine ⟨?readAfterWrite, ?keepsForm, fun m m' h h' hr => Memory.ext_of_wf h h' hr⟩
  case readAfterWrite =>
    intro m a x b
    split_ifs with h
    · rw [h, Memory.read_write_self]
    · exact Memory.read_write_other h b m
  case keepsForm =>
    intro m a b h ha
    exact Memory.wf_write h (by simp; omega)

/-! ## STATUS and ERR -/

/-- STATUS as a number: its fields at their places (R28). -/
theorem State.statusWord_toNat (s : State) :
    s.statusWord.toNat = s.busy.toNat + 2 * s.done.toNat + 4 * s.ok.toNat + 16 * s.session.code.toNat := by
  unfold State.statusWord
  cases s.busy <;> cases s.done <;> cases s.ok <;> cases s.session <;> rfl

/-- STATUS before any session reads 0 (R28, R49). -/
theorem State.statusWord_eq_zero {s : State} (hb : s.busy = false) (hd : s.done = false)
    (ho : s.ok = false) (hs : s.session = .disconnected) : s.statusWord = 0 :=
  BitVec.eq_of_toNat_eq (by rw [State.statusWord_toNat, hb, hd, ho, hs]; rfl)

/-- An ERR of 0 is no range error (R30, R241). -/
theorem errKind_zero : errKind 0 ≠ Kind.rangeError.code := by decide

/-- ERR's fields read back, for every cause and stage (R30). -/
theorem errWord_fields (c : Cause) (st : BitVec 4) :
    errKind (errWord c st) = c.kind.code ∧ errStage (errWord c st) = st ∧
      errCause (errWord c st) = c.code ∧
      (errWord c st).toNat = c.kind.code.toNat + 16 * st.toNat + 256 * c.code.toNat := by
  revert st
  cases c <;> decide

/-- Settles O38: the fields for every cause and stage, and the code tables row by row. -/
theorem errFields : Obligations.ErrFields := by
  refine ⟨errWord_fields, rfl, rfl, rfl, rfl, rfl, rfl, rfl, rfl, ?timeouts⟩
  case timeouts =>
    intro m hm
    cases m with
    | idle => exact absurd rfl hm
    | eq | ack | count | frame => exact ⟨rfl, rfl⟩

/-! ## The register map -/

/-- A host read leaves the register's value in `rdata` (R34). -/
theorem step_hostRead {s u : State} {n : Nat} (h : s.nextTurn = (.hostRead n, u)) :
    step s = .next { u with rdata := u.hostReg n } := step_of_nextTurn h

/-- Taking a move off the schedule leaves every host register alone. -/
theorem hostReg_of_nextTurn {s u : State} {m : Config.Turn} (h : s.nextTurn = (m, u)) (n : Nat) :
    u.hostReg n = s.hostReg n := by
  obtain ⟨ms, d, rfl⟩ := nextTurn_snd h
  rfl

/-- A host write while no session runs, by the register's number (R22 to R27, R276). -/
theorem hostStore_of_idle {s : State} (h : s.busy = false) (v : Word) :
    s.hostStore 0 v = { s with reqOp := v.extractLsb' 0 2 } ∧ s.hostStore 1 v = { s with reqAddr := v } ∧
      s.hostStore 2 v = { s with reqLen := v } ∧ s.hostStore 3 v = { s with pwrDelay := v } ∧
      ∀ n, 3 < n → s.hostStore n v = s := by
  unfold State.hostStore
  rw [h]
  refine ⟨rfl, rfl, rfl, rfl, fun n hn => ?_⟩
  simp [show n ≠ 0 by omega, show n ≠ 1 by omega, show n ≠ 2 by omega, show n ≠ 3 by omega]

/-- A host write that is no START is a store (R22, R27). -/
theorem hostWriteStep_store {n : Nat} {v : Word} (h : n = 4 → v.getLsbD 0 = false) (s : State) :
    hostWriteStep n v s = .next (s.hostStore n v) := by
  rw [hostWriteStep_eq, if_neg]
  rintro ⟨hn, hv⟩
  rw [h hn] at hv
  cases hv

/-- Settles O37: reads by the register's number, writes by BUSY and the register's number. -/
theorem hostRegisterMap : Obligations.HostRegisterMap := by
  refine ⟨?read, fun s u n v h => ⟨?busy, fun hb => ?store⟩⟩
  case read =>
    intro s u t n h ht
    cases (step_hostRead h).symm.trans ht
    change (u.hostReg n).toNat = _
    rw [hostReg_of_nextTurn h]
    match n with
    | 0 => exact BitVec.toNat_setWidth_of_le (w := 2) (w' := 32) (by decide)
    | 5 => exact State.statusWord_toNat s
    | 1 | 2 | 3 | 4 | 6 | 7 | 8 | 9 => rfl
    | n + 10 => rfl
  case busy =>
    intro hb
    rw [step_of_nextTurn h]
    exact hostWriteStep_busy hb n v
  case store =>
    have hw : (n = 4 → v.getLsbD 0 = false) → step s = .next (u.hostStore n v) := fun hv =>
      (step_of_nextTurn h).trans (hostWriteStep_store hv u)
    obtain ⟨h0, h1, h2, h3, hrest⟩ := hostStore_of_idle hb v
    refine ⟨?_, ?_, ?_, ?_, ?_, ?_⟩
    · rintro rfl; rw [hw (by simp), h0]
    · rintro rfl; rw [hw (by simp), h1]
    · rintro rfl; rw [hw (by simp), h2]
    · rintro rfl; rw [hw (by simp), h3]
    · rintro rfl hv; rw [hw fun _ => hv, hrest 4 (by omega)]
    · intro hn; rw [hw (by omega), hrest n (by omega)]

/-! ## Reset -/

/-- Settles O39: the reset state's fields, and the reset input, which goes there but for the clock. -/
theorem resetValues : Obligations.ResetValues := by
  refine ⟨?input, ?powerOn⟩
  case input =>
    intro s u h
    refine ⟨u.applyReset, step_of_nextTurn h, ?_⟩
    obtain ⟨ms, d, rfl⟩ := nextTurn_snd h
    refine ⟨rfl, rfl, rfl, rfl, State.statusWord_eq_zero rfl rfl rfl rfl, ?_⟩
    repeat' apply And.intro
    all_goals rfl
  case powerOn =>
    intro c t
    refine ⟨rfl, rfl, rfl, rfl, State.statusWord_eq_zero rfl rfl rfl rfl, ?_⟩
    repeat' apply And.intro
    all_goals rfl

/-- A block at reset has the invariant whatever the clock, the wire, the sink and the schedule hold: no session
has begun (R44, R49). -/
theorem inv_of_reset {s : State} {c : Config.Params}
    (e : s = { State.resetWith c with
      now := s.now, hist := s.hist, txwire := s.txwire, sink := s.sink, rdata := s.rdata, ans := s.ans
      inputs := s.inputs, draws := s.draws }) : Inv s := by
  rw [e]
  constructor
  case buffers => exact resetWith_buffers_wf c
  case failure => exact ⟨by simp [State.resetWith], .inl rfl, fun h => nomatch h⟩
  case clock => exact ⟨Nat.zero_le _, fun h => nomatch h⟩
  case rejected => exact fun h => absurd h errKind_zero
  all_goals simp [FlagsOk, ResourcesOk, CollectorOk, RegionOk, StageOk, SessionOk, TransferOk, ImageOk, CountsOk,
    SuccessOk, FrameOk, State.builtFrame, SinkOk, ResponseOk, State.resetWith, SeqStep.working,
    SeqStep.portHeld, SeqStep.transferring]

/-- Settles O43. -/
theorem resetHasInvariant : Obligations.ResetHasInvariant :=
  ⟨fun _ => inv_of_reset rfl, inv_of_reset rfl⟩

end Sys2Proof.Machine
end

section
/-!
SUPPORT. What single rows do when their call goes well or fails (R132, R193, R200 to R203): O15, O29, O32, O33, O34.
-/

namespace Sys2Proof.Machine

/-! ## A failure in numbers -/

/-- A failure as R246 writes it carries the code numbers of its cause and stage (R30). -/
theorem State.raise_eq_failedAt (st : SeqStep) (c : Cause) (s : State) :
    s.raise st c = s.failedAt c.kind.code.toNat (stageOf s.op st).toNat c.code.toNat := by
  obtain ⟨-, -, -, h⟩ := errWord_fields c (stageOf s.op st)
  rw [State.failedAt, ← h, BitVec.ofNat_toNat, BitVec.setWidth_eq]
  rfl

/-! ## Transmission -/

/-- A transmission that the Transport accepts whole (R132). -/
theorem txSend_accepted {src : TxSrc} {s : State} (hlen : src = .frame → s.txlen ≤ 521)
    (hne : s.txBytes src ≠ []) (ha : s.ans.tx = .count (s.txBytes src).length) :
    txSend src s = .ok (s.transmitted (s.txBytes src) (s.txBytes src)) := by
  rcases txSend_cases src s with ⟨hf, hlong, -⟩ | ⟨-, h⟩
  · exact absurd (hlen hf) (by omega)
  rw [h]
  rcases txWrite_cases (s.txBytes src) s with
    ⟨h0, -⟩ | ⟨-, ⟨c, hc, hlt, -⟩ | ⟨-, e⟩ | ⟨c, hc, hlt, -⟩ | ⟨he, -⟩⟩
  · exact absurd h0 hne
  · cases ha.symm.trans hc; omega
  · exact e
  · cases ha.symm.trans hc; omega
  · cases ha.symm.trans he

/-- A constant table is sent whole by each row that stands for its TXWRITE (R97, R100). -/
theorem txSend_asset_accepted {src : TxSrc} {k : Asset} {s : State} (hsrc : src ≠ .frame)
    (hb : s.txBytes src = Codec.assetBytes s.cfg k) (ha : s.ans.tx = .count (s.txBytes src).length) :
    txSend src s = .ok (s.transmitted (s.txBytes src) (s.txBytes src)) :=
  txSend_accepted (fun h => absurd h hsrc) (hb ▸ assetBytes_ne_nil s.cfg k) ha

/-- A frame of 1 to 521 bytes is sent whole (R70, R132). -/
theorem txSend_frame_accepted {s : State} (h1 : 1 ≤ s.txlen) (h2 : s.txlen ≤ 521)
    (ha : s.ans.tx = .count s.txlen) :
    txSend .frame s =
      .ok (s.transmitted (s.txbuf.readBytes 0 s.txlen) (s.txbuf.readBytes 0 s.txlen)) := by
  have hl : (s.txBytes .frame).length = s.txlen := Memory.length_readBytes ..
  refine txSend_accepted (fun _ => h2) (fun h => ?_) (hl.symm ▸ ha)
  rw [h] at hl
  simp at hl
  omega

/-- Settles O15: each row is `txSend` of its operand form, settled at its step. -/
theorem acceptedTransmission : Obligations.AcceptedTransmission := by
  refine fun s => ⟨?assets, ?frame, ?assetSteps, ?frameSteps⟩
  case assets =>
    simp only [List.forall_mem_cons, List.not_mem_nil, false_imp_iff, implies_true, and_true]
    have row : ∀ {src : TxSrc} (k : Asset), src ≠ .frame → s.txBytes src = Codec.assetBytes s.cfg k →
        s.ans.tx = .count (s.txBytes src).length → (txSend src s).settle s.step id =
          .next (s.transmitted (s.txBytes src) (s.txBytes src)) := fun k hsrc hb ha =>
      congrArg (Act.settle s.step id) (txSend_asset_accepted hsrc hb ha)
    refine ⟨fun ha => ?_, fun ha => ?_, fun ha => ?_, fun ha => ?_⟩
    · exact ⟨row .training (by simp) rfl ha, row .training (by simp) rfl ha⟩
    · exact ⟨row .announce (by simp) rfl ha, row .announce (by simp) rfl ha⟩
    · exact ⟨row .loader (by simp) rfl ha, row .loader (by simp) rfl ha⟩
    · exact ⟨row .execute (by simp) rfl ha, row .execute (by simp) rfl ha⟩
  case frame =>
    intro h1 h2 ha
    exact congrArg (Act.settle s.step id) (txSend_frame_accepted h1 h2 ha)
  case assetSteps =>
    simp only [List.forall_mem_cons, List.not_mem_nil, false_imp_iff, implies_true, and_true]
    refine ⟨fun ha => ?_, fun ha => ?_, fun ha => ?_, fun ha => ?_⟩
    · exact congrArg (seqStep (.hs .train)) (txSend_asset_accepted (k := .training) (by simp) rfl ha)
    · exact congrArg (seqStep (.ld .announceTx)) (txSend_asset_accepted (k := .announce) (by simp) rfl ha)
    · exact congrArg (seqStep (.ld .uploadTx)) (txSend_asset_accepted (k := .loader) (by simp) rfl ha)
    · exact congrArg (seqStep (.ld .execTx)) (txSend_asset_accepted (k := .execute) (by simp) rfl ha)
  case frameSteps =>
    simp only [List.forall_mem_cons, List.not_mem_nil, false_imp_iff, implies_true, and_true]
    refine ⟨fun h1 h2 ha => ?_, fun h1 h2 ha => ?_, fun h1 h2 ha => ?_⟩
    · exact congrArg (seqStep (.rd .tx)) (txSend_frame_accepted h1 h2 ha)
    · exact congrArg (seqStep (.wr .tx)) (txSend_frame_accepted h1 h2 ha)
    · exact congrArg (seqStep (.er .tx)) (txSend_frame_accepted h1 h2 ha)

/-! ## START -/

/-- START while no session runs: the fields it sets (R193). -/
theorem State.start_of_idle {s : State} (h : s.busy = false) (op : Op) :
    s.start op = { s with
      op := op, addr0 := s.reqAddr, len0 := s.reqLen, pdelay := s.pwrDelay
      busy := true, done := false, ok := false, session := .disconnected
      err := 0, chunks := 0, xfer := 0, txcalls := 0, failed := false
      streamOpen := decide (op = .read ∨ op = .write), sink := if op = .read then [] else s.sink
      step := .range } := by
  rw [State.start, if_neg (by simp [h])]
  cases op <;> rfl

/-- START while a session runs is ignored (R27, R276). -/
theorem State.start_of_busy {s : State} (h : s.busy = true) (op : Op) : s.start op = s := if_pos h

/-- The four values of REQ_OP and the requests they select (R87). -/
theorem opOfCode_opCode (op : Op) : Codec.opOfCode (Codec.opCode op) = op := by cases op <;> rfl

/-- Settles O29: a request row and SEQ_START are both `State.start`, which has two cases. -/
theorem startLatchesRequest : Obligations.StartLatchesRequest := by
  intro s p hp
  obtain ⟨hrow, hcode⟩ : exec p.1 s = .next (s.start p.2.1) ∧ p.2.2 = Codec.opCode p.2.1 := by
    simp only [List.mem_cons, List.not_mem_nil, or_false] at hp
    rcases hp with rfl | rfl | rfl | rfl <;> exact ⟨rfl, rfl⟩
  have hseq : exec .seqStart s = .next (s.start (Codec.opOfCode s.reqOp)) := rfl
  rw [hrow, hseq]
  constructor
  · intro hb
    refine ⟨if p.2.1 = .read then [] else s.sink, ?_, fun hop => ?_⟩
    · rw [State.start_of_idle hb]
    · rw [show Codec.opOfCode s.reqOp = p.2.1 by rw [hop, hcode, opOfCode_opCode], State.start_of_idle hb]
  · intro hb
    simp only [State.start_of_busy hb, and_self]

/-! ## OP_DISPATCH -/

/-- Settles O32, by the operation. -/
theorem dispatchByOperation : Obligations.DispatchByOperation := by
  intro s
  have hx : exec .seqDispatch s = execSeqDispatch s := rfl
  rw [hx, execSeqDispatch]
  refine ⟨?_, ?_, ?_, fun h => by rw [h]; rfl⟩ <;> intro h <;>
    simp only [h, seqStep, Act.settle_ok, State.advance, successor] <;> rfl

/-! ## Chunks -/

/-- RD_NEXT with bytes remaining: the chunk's length is taken and its read command built (R160, R162, R201). -/
theorem execSeqReadChunk_next {s : State} (h : s.remaining ≠ 0) :
    ∃ u, Built (Codec.readBody s.cfg s.curAddr s.nextChunkLen) { s with chunkLen := s.nextChunkLen } u ∧
      execSeqReadChunk .next s = .next (u.goto (.rd .settle)) := by
  obtain ⟨u, hu, hb⟩ := buildTx_built (body := Codec.readBody s.cfg s.curAddr s.nextChunkLen)
    { s with chunkLen := s.nextChunkLen } (by simp)
  have hr : u.remaining = s.remaining := by rw [hb.eq]
  refine ⟨u, hb, ?_⟩
  simp only [execSeqReadChunk, if_neg h, hu, seqStep, Act.settle_ok, State.advance, successor, hr]

/-- Settles O33: RD_NEXT by what remains, RD_COMMIT by the sink's answer. -/
theorem readChunkSteps : Obligations.ReadChunkSteps := by
  refine fun s => ⟨?last, ?next, fun h1 h2 => ?commit⟩
  case last =>
    intro h
    have hx : exec (.seqReadChunk .next) s = execSeqReadChunk .next s := rfl
    simp only [hx, execSeqReadChunk, if_pos h, seqStep, Act.settle_ok, State.advance, successor]
    rfl
  case next =>
    intro h len
    obtain ⟨u, hb, hx⟩ := execSeqReadChunk_next h
    refine ⟨_, hx, rfl, ?_, hb.frame, fun x hx => hb.rest x hx, ?_⟩
    · rw [State.goto_chunkLen, hb.eq]
      rfl
    · conv_lhs => rw [hb.eq]
      conv_rhs => rw [hb.eq]
      rfl
  case commit =>
    intro payload
    have hx : exec (.seqReadChunk .commit) s =
        seqStep (.rd .commit) ((sinkCall s).andThen fun s => .ok s.commitChunk) := rfl
    rw [hx]
    rcases sinkCall_cases s with ⟨h0, -⟩ | ⟨-, -, ⟨hok, e⟩ | ⟨hno, e⟩⟩
    · omega
    · refine ⟨fun _ => by rw [e]; rfl, fun hf => ?_⟩
      rw [hok] at hf
      cases hf
    · refine ⟨fun hf => ?_, fun _ => ⟨s.ans.sinkOnErr, ?_⟩⟩
      · rw [hno] at hf
        cases hf
      · rw [e]
        exact congrArg Host.Outcome.next (State.raise_eq_failedAt ..)

/-- WR_BUILD leaves the chunk's write command in `txbuf`, around the image bytes that stand there (R163, R203). -/
theorem buildWrite_image {s : State} (h : s.chunkLen.toNat ≤ 512) :
    ∃ u, buildWrite s.curAddr s.imageBytes s = .ok u ∧
      Built (Codec.writeHeader s.cfg s.curAddr ++ s.imageBytes) s u ∧ u.imageBytes = s.imageBytes := by
  have hlen : s.imageBytes.length = s.chunkLen.toNat := Memory.length_readBytes ..
  obtain ⟨u, hu, hb⟩ := buildWrite_built (a := s.curAddr) (d := s.imageBytes) s (by simpa [hlen] using h)
  have hcl : u.chunkLen = s.chunkLen := by rw [hb.eq]
  have htl : u.txlen = 8 + s.chunkLen.toNat + 1 := by rw [hb.eq]; simp [hlen]
  have hf : u.txbuf.readBytes 0 (8 + s.chunkLen.toNat + 1) =
      Codec.writeHeader s.cfg s.curAddr ++
        (s.imageBytes ++ [Codec.sum8 (Codec.writeHeader s.cfg s.curAddr ++ s.imageBytes)]) := by
    rw [← htl, ← List.append_assoc]
    exact hb.frame
  rw [Nat.add_assoc, Memory.readBytes_add, Memory.readBytes_add] at hf
  obtain ⟨-, hf⟩ := List.append_inj hf (by simp)
  obtain ⟨hf, -⟩ := List.append_inj hf (by simp [hlen])
  refine ⟨u, hu, hb, ?_⟩
  rw [State.imageBytes, hcl]
  exact hf

/-- Settles O34, step by step; WR_SRC by the source's answer. -/
theorem writeChunkSteps : Obligations.WriteChunkSteps := by
  refine fun s => ⟨?last, ?next, ?byte, ?finished, ?err, ?build, rfl⟩
  case last =>
    intro h
    have hx : exec (.seqWriteChunk .next) s = execSeqWriteChunk .next s := rfl
    simp only [hx, execSeqWriteChunk, if_pos h, seqStep, Act.settle_ok, State.advance, successor]
    rfl
  case next =>
    intro h
    have hx : exec (.seqWriteChunk .next) s = execSeqWriteChunk .next s := rfl
    simp only [hx, execSeqWriteChunk, if_neg h, seqStep, Act.settle_ok, State.advance, successor]
    rfl
  case byte =>
    intro b ha hw
    refine ⟨Memory.write (8 + s.widx) b s.txbuf, Memory.read_write_self .., fun x hx =>
      Memory.read_write_other hx .., ?_⟩
    have hx : exec (.seqWriteChunk .src) s = seqStep (.wr .src) (srcStep s) := rfl
    rcases srcStep_cases s with ⟨c, hc, -, e⟩ | ⟨c, -, hlong, -⟩ | ⟨hc, -⟩ | ⟨hc, -⟩
    · cases ha.symm.trans hc
      rw [hx, e]
      rfl
    · omega
    · cases ha.symm.trans hc
    · cases ha.symm.trans hc
  case finished =>
    intro ha
    have hx : exec (.seqWriteChunk .src) s = seqStep (.wr .src) (srcStep s) := rfl
    rw [hx, srcStep, ha]
    exact congrArg Host.Outcome.next (State.raise_eq_failedAt ..)
  case err =>
    intro ha
    have hx : exec (.seqWriteChunk .src) s = seqStep (.wr .src) (srcStep s) := rfl
    rw [hx, srcStep, ha]
    exact congrArg Host.Outcome.next (State.raise_eq_failedAt ..)
  case build =>
    intro h
    obtain ⟨u, hu, hb, him⟩ := buildWrite_image h
    have hx : exec (.seqWriteChunk .build) s = .next (u.goto (.wr .settle)) :=
      congrArg (seqStep (.wr .build)) hu
    have hlen : (Codec.writeHeader s.cfg s.curAddr ++ s.imageBytes).length = 8 + s.chunkLen.toNat := by
      simp [State.imageBytes]
    have htl : u.txlen = 9 + s.chunkLen.toNat := by
      rw [hb.eq]
      simp only [hlen]
      omega
    refine ⟨_, hx, rfl, hb.frame, him, htl, fun x hx => hb.rest x (by omega), ?_⟩
    conv_lhs => rw [hb.eq]
    rw [State.goto_txlen, htl]
    simp only [State.goto, hlen]
    congr 1
    omega

end Sys2Proof.Machine
end

section
/-!
SUPPORT. The engine's action at each step, as one function, and what no action touches: O48, O50, O51, and the
moves of SESSION and ERR that O54 and O55 rest on.
-/

namespace Sys2Proof.Machine

/-! ## One engine step as one action -/

/-- The action of a step with the collector idle, as the stages R194 to R206 give it to `seqStep`. IDLE
has none, and an await's entry is `awaitEntry`; `engineStep_shape` ties both to the engine's step. -/
def stepAct (st : SeqStep) (s : State) : Act :=
  match st with
  | .range =>
    if (s.op = .read ∨ s.op = .write) ∧ Config.capacity < s.addr0.toNat + s.len0.toNat then .fail .region s
    else if s.op = .erase ∧ Config.capacity ≤ s.addr0.toNat then .fail .sector s
    else .ok s
  | .openPort => openCall s
  | .hs .assert => .ok (ctlAssertCall s)
  | .hs .powerWait => waitCall .pdelay s
  | .hs .train => txSend .training s
  | .hs .release => .ok (ctlReleaseCall s)
  | .hs .settle => waitCall .hsSettle s
  | .hs .flush => .ok { flushCall s with session := .connected }
  | .ld .announceTx => txSend .announce s
  | .ld .preUpload => waitCall .preUpload s
  | .ld .uploadTx => txSend .loader s
  | .ld .preExec => waitCall .preExec s
  | .ld .execTx => txSend .execute s
  | .ld .final => (waitCall .final s).andThen fun s => .ok { s with session := .ready }
  | .opDispatch =>
    match s.op with
    | .connectOnly => .stop .dispatchConnectOnly
    | .read => .ok { s with session := .reading, curAddr := s.addr0, remaining := s.len0 }
    | .write => .ok { s with session := .writing, curAddr := s.addr0, remaining := s.len0 }
    | .erase => .ok { s with session := .erasing }
  | .rd .next =>
    if s.remaining = 0 then .ok s
    else buildTx (Codec.readBody s.cfg s.curAddr s.nextChunkLen) { s with chunkLen := s.nextChunkLen }
  | .rd .settle | .wr .settle | .er .settle => waitCall .chunkSettle s
  | .rd .tx | .wr .tx | .er .tx => txSend .frame s
  | .rd .commit => (sinkCall s).andThen fun s => .ok s.commitChunk
  | .wr .next => .ok (if s.remaining = 0 then s else { s with chunkLen := s.nextChunkLen, widx := 0 })
  | .wr .src => srcStep s
  | .wr .build => buildWrite s.curAddr s.imageBytes s
  | .wr .commit => .ok s.commitChunk
  | .er .build =>
    if s.addr0 = 0 then buildTx (Codec.eraseAllBody s.cfg) s
    else buildTx (Codec.eraseSectorBody s.cfg s.addr0) s
  | .er .commit => .ok { s with chunks := 1 }
  | .td .close => .ok (closeCall s)
  | .td .stream => .ok (streamCloseCall s)
  | .td .finish => .ok s.endSession
  | .idle | .hs .await | .ld .announceAwait | .ld .uploadAwait | .ld .execAwait | .rd .await | .wr .await
  | .er .await => .hold s

/-- The state in which an await step has entered its await (R142, R196 to R205). -/
def awaitEntry (st : SeqStep) (s : State) : State :=
  match st with
  | .hs .await => { s with cexp := Config.hsAckByte }.enterAwait .eq s.cfg.raw.tHsAck
  | .ld .announceAwait => s.enterAwait .ack s.cfg.raw.tAnnounce
  | .ld .uploadAwait => s.enterAwait .ack s.cfg.raw.tUpload
  | .ld .execAwait => s.enterAwait .count s.cfg.raw.tExec
  | .rd .await => s.enterFrame .read s.cfg.raw.tFrameRead
  | .wr .await => s.enterFrame .ack9 s.cfg.raw.tFrameWrite
  | .er .await => s.enterFrame .ack9 s.cfg.raw.tFrameErase
  | _ => s

/-- What one engine step is: nothing at IDLE, an await's entry, the step's action, or a collect step (R142, R143,
R192). -/
theorem engineStep_shape (s : State) :
    (s.step = .idle ∧ engineStep s = .next s) ∨
    (s.cmode = .idle ∧ (awaitMode s.step).isSome = true ∧ engineStep s = .next (awaitEntry s.step s)) ∨
    (s.step ≠ .idle ∧ s.cmode = .idle ∧ awaitMode s.step = none ∧
      engineStep s = seqStep s.step (stepAct s.step s)) ∨
    (s.step ≠ .idle ∧ s.cmode ≠ .idle ∧
      engineStep s = (collect s).settle s.step (State.finishAwait s.step)) := by
  by_cases hi : s.step = .idle
  · exact .inl ⟨hi, engineStep_idle hi⟩
  by_cases hc : s.cmode = .idle
  case neg => exact .inr (.inr (.inr ⟨hi, hc, engineStep_collect hi hc⟩))
  rw [engineStep_eq, hc]
  cases hs : s.step with
  | idle => exact absurd hs hi
  | range | opDispatch => exact .inr (.inr (.inl ⟨by simp, rfl, rfl, rfl⟩))
  | openPort =>
    refine .inr (.inr (.inl ⟨by simp, rfl, rfl, ?_⟩))
    simp only [execOpenPort, hs]
    rfl
  | hs x =>
    cases x
    case await => exact .inr (.inl ⟨rfl, rfl, if_pos hc⟩)
    all_goals exact .inr (.inr (.inl ⟨by simp, rfl, rfl, rfl⟩))
  | ld x =>
    cases x
    case announceAwait | uploadAwait | execAwait => exact .inr (.inl ⟨rfl, rfl, seqAwait_of_idle hc ..⟩)
    all_goals exact .inr (.inr (.inl ⟨by simp, rfl, rfl, rfl⟩))
  | rd x =>
    cases x
    case await => exact .inr (.inl ⟨rfl, rfl, seqAwait_of_idle hc ..⟩)
    all_goals exact .inr (.inr (.inl ⟨by simp, rfl, rfl, rfl⟩))
  | wr x =>
    cases x
    case await => exact .inr (.inl ⟨rfl, rfl, seqAwait_of_idle hc ..⟩)
    all_goals exact .inr (.inr (.inl ⟨by simp, rfl, rfl, rfl⟩))
  | er x =>
    cases x
    case await => exact .inr (.inl ⟨rfl, rfl, seqAwait_of_idle hc ..⟩)
    all_goals exact .inr (.inr (.inl ⟨by simp, rfl, rfl, rfl⟩))
  | td x => cases x <;> exact .inr (.inr (.inl ⟨by simp, rfl, rfl, rfl⟩))

/-- RANGE by its outcome: a failed region check, or a region inside the flash (R194). -/
theorem stepAct_range_cases (s : State) :
    stepAct .range s = .fail .region s ∨ stepAct .range s = .fail .sector s ∨
      (((s.op = .read ∨ s.op = .write) → s.addr0.toNat + s.len0.toNat ≤ Config.capacity) ∧
        (s.op = .erase → s.addr0.toNat < Config.capacity) ∧ stepAct .range s = .ok s) := by
  by_cases h1 : (s.op = .read ∨ s.op = .write) ∧ Config.capacity < s.addr0.toNat + s.len0.toNat
  · exact .inl (if_pos h1)
  by_cases h2 : s.op = .erase ∧ Config.capacity ≤ s.addr0.toNat
  · exact .inr (.inl ((if_neg h1).trans (if_pos h2)))
  · exact .inr (.inr ⟨fun h => Nat.not_lt.1 fun hlt => h1 ⟨h, hlt⟩, fun h => Nat.not_le.1 fun hle => h2 ⟨h, hle⟩,
      (if_neg h1).trans (if_neg h2)⟩)

/-- OP_DISPATCH by the operation (R200). -/
theorem stepAct_dispatch_cases (s : State) :
    (s.op = .connectOnly ∧ stepAct .opDispatch s = .stop .dispatchConnectOnly) ∨
    (s.op = .read ∧ stepAct .opDispatch s =
      .ok { s with session := .reading, curAddr := s.addr0, remaining := s.len0 }) ∨
    (s.op = .write ∧ stepAct .opDispatch s =
      .ok { s with session := .writing, curAddr := s.addr0, remaining := s.len0 }) ∨
    (s.op = .erase ∧ stepAct .opDispatch s = .ok { s with session := .erasing }) := by
  cases h : s.op <;> simp [stepAct, h]

/-- RD_NEXT by what remains (R201). -/
theorem stepAct_rdNext_cases (s : State) :
    (s.remaining = 0 ∧ stepAct (.rd .next) s = .ok s) ∨
    (s.remaining ≠ 0 ∧ stepAct (.rd .next) s =
      buildTx (Codec.readBody s.cfg s.curAddr s.nextChunkLen) { s with chunkLen := s.nextChunkLen }) := by
  by_cases h : s.remaining = 0
  · exact .inl ⟨h, if_pos h⟩
  · exact .inr ⟨h, if_neg h⟩

/-- WR_NEXT by what remains (R203). -/
theorem stepAct_wrNext_cases (s : State) :
    (s.remaining = 0 ∧ stepAct (.wr .next) s = .ok s) ∨
    (s.remaining ≠ 0 ∧ stepAct (.wr .next) s = .ok { s with chunkLen := s.nextChunkLen, widx := 0 }) := by
  by_cases h : s.remaining = 0
  · exact .inl ⟨h, congrArg Act.ok (if_pos h)⟩
  · exact .inr ⟨h, congrArg Act.ok (if_neg h)⟩

/-- ER_BUILD by its target (R166, R205). -/
theorem stepAct_erBuild_cases (s : State) :
    (s.addr0 = 0 ∧ stepAct (.er .build) s = buildTx (Codec.eraseAllBody s.cfg) s) ∨
    (s.addr0 ≠ 0 ∧ stepAct (.er .build) s = buildTx (Codec.eraseSectorBody s.cfg s.addr0) s) := by
  by_cases h : s.addr0 = 0
  · exact .inl ⟨h, if_pos h⟩
  · exact .inr ⟨h, if_neg h⟩

/-- The entry of an await takes the mode and shape of its step (R142). -/
theorem awaitEntry_entered {s : State} (h : (awaitMode s.step).isSome = true) :
    Entered s (awaitEntry s.step s) := by
  obtain ⟨⟨m, sh⟩, hm⟩ := Option.isSome_iff_exists.1 h
  rcases awaitMode_cases hm with
    ⟨rfl, hs⟩ | ⟨rfl, hs | hs⟩ | ⟨rfl, hs⟩ | ⟨rfl, rfl, hs⟩ | ⟨rfl, rfl, hs | hs⟩ <;> rw [hs]
  · exact ⟨_, _, _, hm, by simp, fun _ => rfl, rfl⟩
  · exact ⟨_, _, _, hm, by simp, by simp, rfl⟩
  · exact ⟨_, _, _, hm, by simp, by simp, rfl⟩
  · exact ⟨_, _, _, hm, by simp, by simp, rfl⟩
  · exact ⟨_, _, _, hm, fun _ => rfl, by simp, rfl⟩
  · exact ⟨_, _, _, hm, fun _ => rfl, by simp, rfl⟩
  · exact ⟨_, _, _, hm, fun _ => rfl, by simp, rfl⟩

/-! ## What no engine action writes -/

/-- The configuration, the request registers and the latched request (R20, R22, R35). -/
structure SameRequest (s t : State) : Prop where
  cfg : t.cfg = s.cfg
  reqOp : t.reqOp = s.reqOp
  reqAddr : t.reqAddr = s.reqAddr
  reqLen : t.reqLen = s.reqLen
  pwrDelay : t.pwrDelay = s.pwrDelay
  op : t.op = s.op
  addr0 : t.addr0 = s.addr0
  len0 : t.len0 = s.len0
  pdelay : t.pdelay = s.pdelay

/-- No transmission, or one: TXCALLS, the history and the wire move together (R33, R132). -/
def Transmits (a : Config.TxAns) (s t : State) : Prop :=
  (t.txcalls = s.txcalls ∧ t.txwire = s.txwire ∧
    ∃ es : List Event, t.hist = s.hist ++ es ∧ ∀ bs x, Event.txWrite bs x ∉ es) ∨
  (t.txcalls = s.txcalls + 1 ∧ ∃ bs sent : List Byte,
    t.hist = s.hist ++ [.txWrite bs a] ∧ bs ≠ [] ∧ t.txwire = s.txwire ++ sent ∧
    sent <+: bs ∧ ∀ k, a = .count k → sent.length = k)

/-- The steps that move SESSION, and where to (R29, R196, R198, R200, R206). -/
def sessionMoves : List (SeqStep × Session) :=
  [(.hs .flush, .connected), (.ld .execAwait, .loaderInstalled), (.ld .final, .ready),
    (.opDispatch, .reading), (.opDispatch, .writing), (.opDispatch, .erasing), (.td .finish, .closed)]

/-- SESSION stays, or moves as the step says. -/
def SessionMoves (s t : State) : Prop := t.session = s.session ∨ (s.step, t.session) ∈ sessionMoves

/-- What an action leaves alone when it settles: the request, ERR and `failed`; it transmits at most once, and
moves SESSION only as its step says (R42, R132, R192, R247). -/
structure ActFrame (s u : State) : Prop extends SameRequest s u where
  wire : Transmits s.ans.tx s u
  session : SessionMoves s u
  err : u.err = s.err
  failed : u.failed = s.failed

theorem SameRequest.refl (s : State) : SameRequest s s := ⟨rfl, rfl, rfl, rfl, rfl, rfl, rfl, rfl, rfl⟩

theorem ActFrame.refl (s : State) : ActFrame s s where
  toSameRequest := .refl s
  wire := .inl ⟨rfl, rfl, [], by simp, by simp⟩
  session := .inl rfl
  err := rfl
  failed := rfl

/-- A call other than TxWrite records itself and transmits nothing (R16, R17). -/
theorem ActFrame.log {e : Event} (h : ∀ bs x, e ≠ .txWrite bs x) (s : State) : ActFrame s (s.log e) where
  toSameRequest := { SameRequest.refl s with }
  wire := .inl ⟨rfl, rfl, [e], rfl, fun bs x hm => h bs x (List.mem_singleton.1 hm).symm⟩
  session := .inl rfl
  err := rfl
  failed := rfl

/-! ### The actions -/

theorem storeTx_frame {s u : State} (h : ActFrame s u) (a : Nat) (bs : List Byte) :
    (storeTx a bs u).Leaves (ActFrame s) := by
  unfold storeTx
  split
  · exact { h with }
  · trivial

theorem stampTx_frame {s u : State} (h : ActFrame s u) (n : Nat) : (stampTx n u).Leaves (ActFrame s) := by
  unfold stampTx
  split
  · exact { h with }
  · trivial

theorem buildTx_frame {s u : State} (h : ActFrame s u) (body : List Byte) :
    (buildTx body u).Leaves (ActFrame s) :=
  (storeTx_frame h 0 body).andThen fun _ hv => stampTx_frame hv _

theorem buildWrite_frame (a : Word) (d : List Byte) (s : State) :
    (buildWrite a d s).Leaves (ActFrame s) :=
  ((storeTx_frame (.refl s) 0 _).andThen fun _ hu => storeTx_frame hu _ d).andThen
    fun _ hv => stampTx_frame hv _

/-- A transmission counts once and puts a leading part of its bytes on the wire (R33, R132). -/
theorem txWrite_frame (bs : List Byte) (s : State) : (txWrite bs s).Leaves (ActFrame s) := by
  have hsent : ∀ sent : List Byte, bs ≠ [] → sent <+: bs →
      (∀ k, s.ans.tx = .count k → sent.length = k) → ActFrame s { s with
        hist := s.hist ++ [.txWrite bs s.ans.tx], txcalls := s.txcalls + 1
        txwire := s.txwire ++ sent } := fun sent hne hp hl =>
    { ActFrame.refl s with wire := .inr ⟨rfl, bs, sent, rfl, hne, rfl, hp, hl⟩ }
  rcases txWrite_cases bs s with
    ⟨-, h⟩ | ⟨hne, ⟨c, -, -, h⟩ | ⟨ha, h⟩ | ⟨c, ha, hlt, h⟩ | ⟨ha, h⟩⟩ <;> rw [h]
  · trivial
  · trivial
  · exact hsent bs hne (List.prefix_refl bs) fun k hk => by rw [ha] at hk; cases hk; rfl
  · refine hsent _ hne (List.take_prefix c bs) fun k hk => ?_
    rw [ha] at hk
    cases hk
    rw [List.length_take]
    omega
  · exact hsent _ hne (List.take_prefix _ bs) fun k hk => by rw [ha] at hk; cases hk

theorem txSend_frame (src : TxSrc) (s : State) : (txSend src s).Leaves (ActFrame s) := by
  rcases txSend_cases src s with ⟨-, -, h⟩ | ⟨-, h⟩ <;> rw [h]
  · trivial
  · exact txWrite_frame _ s

theorem openCall_frame (s : State) : (openCall s).Leaves (ActFrame s) := by
  rcases openCall_cases s with ⟨-, h⟩ | ⟨-, h⟩ <;> rw [h] <;>
    exact { ActFrame.log (e := .openPort _) (by simp) s with }

theorem waitCall_frame (t : WaitArg) (s : State) : (waitCall t s).Leaves (ActFrame s) := by
  rcases waitCall_cases t s with ⟨-, h⟩ | ⟨-, -, h⟩ | ⟨-, -, h⟩ <;> rw [h] <;>
    exact { ActFrame.refl s with }

theorem sinkCall_frame (s : State) : (sinkCall s).Leaves (ActFrame s) := by
  rcases sinkCall_cases s with ⟨-, h⟩ | ⟨-, -, ⟨-, h⟩ | ⟨-, h⟩⟩ <;> rw [h]
  · trivial
  all_goals exact { ActFrame.log (e := .sinkWrite _ _) (by simp) s with }

theorem srcStep_frame (s : State) : (srcStep s).Leaves (ActFrame s) := by
  rcases srcStep_cases s with ⟨b, -, -, h⟩ | ⟨b, -, -, h⟩ | ⟨-, h⟩ | ⟨-, h⟩ <;> rw [h]
  · exact { ActFrame.log (e := .srcRead _) (by simp) s with }
  · trivial
  all_goals exact { ActFrame.log (e := .srcRead _) (by simp) s with }

theorem closeCall_frame (s : State) : ActFrame s (closeCall s) := by
  unfold closeCall
  split
  · exact { ActFrame.log (e := .close _) (by simp) s with }
  · exact .refl s

theorem streamCloseCall_frame (s : State) : ActFrame s (streamCloseCall s) := by
  unfold streamCloseCall
  split
  · exact { ActFrame.log (e := .streamClose) (by simp) s with }
  · exact .refl s

theorem failAwait_frame {s u : State} (h : ActFrame s u) (c : Cause) :
    (failAwait c u).Leaves (ActFrame s) := { h with }

theorem doneAwait_frame {s u : State} (h : ActFrame s u) : (doneAwait u).Leaves (ActFrame s) := { h with }

theorem validateRx_frame {s u : State} (h : ActFrame s u) (n : Nat) :
    (validateRx n u).Leaves (ActFrame s) := by
  unfold validateRx
  split_ifs
  · trivial
  · trivial
  · exact h
  · exact failAwait_frame h _

theorem checkLength_frame {s u : State} (h : ActFrame s u) : (checkLength u).Leaves (ActFrame s) := by
  unfold checkLength
  simp only
  split_ifs
  · exact failAwait_frame h _
  · exact failAwait_frame h _
  · exact { h with }
  · exact h

theorem checkEnd_frame {s u : State} (h : ActFrame s u) : (checkEnd u).Leaves (ActFrame s) := by
  unfold checkEnd
  split_ifs
  · exact (validateRx_frame h _).andThen fun _ hv => doneAwait_frame hv
  · exact h

theorem acceptFrame_frame {s u : State} (h : ActFrame s u) (b : Byte) :
    (acceptFrame b u).Leaves (ActFrame s) := by
  have hstored : ActFrame s
      { u with rxbuf := Memory.write u.cidx b u.rxbuf, cidx := u.cidx + 1 } := { h with }
  unfold acceptFrame
  simp only
  split_ifs
  · trivial
  · exact failAwait_frame hstored _
  · exact failAwait_frame hstored _
  · exact (checkLength_frame hstored).andThen fun _ hv => checkEnd_frame hv

theorem accept_actFrame {s u : State} (h : ActFrame s u) (b : Byte) : (accept b u).Leaves (ActFrame s) := by
  have hone : ActFrame s { u with cidx := 1 } := { h with }
  have hcount : ActFrame s { u with cidx := u.cidx + 1 } := { h with }
  cases hm : u.cmode with
  | idle => unfold accept; rw [hm]; exact h
  | eq =>
    rw [accept_eq hm, acceptEq]
    split_ifs
    · exact doneAwait_frame hone
    · exact failAwait_frame hone _
  | ack =>
    rw [accept_ack hm, acceptAck]
    split_ifs
    · exact doneAwait_frame hone
    · exact failAwait_frame hone _
  | count =>
    rw [accept_count hm, acceptCount]
    split_ifs
    · exact doneAwait_frame hcount
    · exact hcount
  | frame => rw [accept_frame hm]; exact acceptFrame_frame h b

theorem collect_frame (s : State) : (collect s).Leaves (ActFrame s) := by
  rcases collect_cases s with h | ⟨-, h⟩ | ⟨-, h⟩ | ⟨b, q, -, h⟩ | h <;> rw [h]
  · exact failAwait_frame (.log (e := .poll _) (by simp) s) _
  · exact failAwait_frame (.log (e := .poll _) (by simp) s) _
  · exact .refl s
  · have hpoll : ActFrame s { s with hist := s.hist ++ [.poll (.byte b)], rxq := q } :=
      { ActFrame.log (e := .poll (.byte b)) (by simp) s with }
    exact accept_actFrame hpoll b
  · trivial

/-! ### The step -/

/-- The action of every step at which the collector is idle. -/
theorem stepAct_frame {s : State} {st : SeqStep} (hs : s.step = st) :
    (stepAct st s).Leaves (ActFrame s) := by
  cases st with
  | idle => exact .refl s
  | range =>
    rcases stepAct_range_cases s with h | h | ⟨-, -, h⟩ <;> rw [h] <;> exact ActFrame.refl s
  | openPort => exact openCall_frame s
  | hs x =>
    cases x
    case assert => exact { ActFrame.log (e := .ctlAssert) (by simp) s with }
    case powerWait | settle => exact waitCall_frame _ s
    case train => exact txSend_frame _ s
    case release => exact { ActFrame.log (e := .ctlRelease) (by simp) s with }
    case await => exact ActFrame.refl s
    case flush =>
      exact { ActFrame.log (e := .flush) (by simp) s with session := .inr (by simp [hs, sessionMoves]) }
  | ld x =>
    cases x
    case announceTx | uploadTx | execTx => exact txSend_frame _ s
    case preUpload | preExec => exact waitCall_frame _ s
    case announceAwait | uploadAwait | execAwait => exact ActFrame.refl s
    case final =>
      exact (waitCall_frame _ s).andThen fun u hu =>
        { hu with session := .inr (by simp [hs, sessionMoves]) }
  | opDispatch =>
    rcases stepAct_dispatch_cases s with ⟨-, h⟩ | ⟨-, h⟩ | ⟨-, h⟩ | ⟨-, h⟩ <;> rw [h]
    · trivial
    all_goals exact { ActFrame.refl s with session := .inr (by simp [hs, sessionMoves]) }
  | rd x =>
    cases x
    case next =>
      have hlen : ActFrame s { s with chunkLen := s.nextChunkLen } := { ActFrame.refl s with }
      rcases stepAct_rdNext_cases s with ⟨-, h⟩ | ⟨-, h⟩ <;> rw [h]
      · exact ActFrame.refl s
      · exact buildTx_frame hlen _
    case settle => exact waitCall_frame _ s
    case tx => exact txSend_frame _ s
    case await => exact ActFrame.refl s
    case commit => exact (sinkCall_frame s).andThen fun u hu => { hu with }
  | wr x =>
    cases x
    case next =>
      rcases stepAct_wrNext_cases s with ⟨-, h⟩ | ⟨-, h⟩ <;> rw [h] <;> exact { ActFrame.refl s with }
    case src => exact srcStep_frame s
    case build => exact buildWrite_frame _ _ s
    case settle => exact waitCall_frame _ s
    case tx => exact txSend_frame _ s
    case await => exact ActFrame.refl s
    case commit => exact { ActFrame.refl s with }
  | er x =>
    cases x
    case build =>
      rcases stepAct_erBuild_cases s with ⟨-, h⟩ | ⟨-, h⟩ <;> rw [h] <;> exact buildTx_frame (.refl s) _
    case settle => exact waitCall_frame _ s
    case tx => exact txSend_frame _ s
    case await => exact ActFrame.refl s
    case commit => exact { ActFrame.refl s with }
  | td x =>
    cases x
    case close => exact closeCall_frame s
    case stream => exact streamCloseCall_frame s
    case finish => exact { ActFrame.refl s with session := .inr (by simp [hs, sessionMoves]) }

theorem ActFrame.advance {s u : State} (h : ActFrame s u) (st : SeqStep) : ActFrame s (u.advance st) :=
  { h with }

/-- The end of an await moves SESSION behind EXECUTE's await only (R198). -/
theorem ActFrame.finishAwait {s u : State} (h : ActFrame s u) : ActFrame s (u.finishAwait s.step) := by
  unfold State.finishAwait
  split
  · exact h
  · split_ifs with hs
    · have hmem : (s.step, Session.loaderInstalled) ∈ sessionMoves := by simp [hs, sessionMoves]
      exact { h with session := .inr hmem }
    · exact h.advance _

/-- The action an engine step settles: the collect step while an await runs, else the action of the step. -/
def engineAct (s : State) : Act := if s.cmode = .idle then stepAct s.step s else collect s

theorem ActFrame.settle {s t : State} {a : Act} {f : State → State} (ha : a.Leaves (ActFrame s))
    (hf : ∀ u, ActFrame s u → ActFrame s (f u)) (h : a.settle s.step f = .next t) :
    ActFrame s t ∨ ∃ c u, a = .fail c u ∧ ActFrame s u ∧ t = u.raise s.step c := by
  rcases Act.settle_next h with ⟨u, rfl, rfl⟩ | ⟨u, rfl, rfl⟩ | ⟨c, u, rfl, rfl⟩
  · exact .inl (hf u ha)
  · exact .inl ha
  · exact .inr ⟨c, u, rfl, ha, rfl⟩

/-- What an engine step does to the request, the wire, SESSION and ERR: it leaves what an action leaves, or its
action failed and the failure was taken (R192, R246). -/
theorem engineStep_effect {s t : State} (h : engineStep s = .next t) :
    ActFrame s t ∨ ∃ c u, engineAct s = .fail c u ∧ ActFrame s u ∧ t = u.raise s.step c := by
  unfold engineAct
  rcases engineStep_shape s with ⟨-, e⟩ | ⟨-, ha, e⟩ | ⟨-, hc, -, e⟩ | ⟨-, hc, e⟩ <;> rw [e] at h
  · cases h
    exact .inl (.refl s)
  · cases h
    obtain ⟨m, sh, budget, -, -, -, e⟩ := awaitEntry_entered ha
    rw [e]
    exact .inl { ActFrame.refl s with }
  · rw [if_pos hc]
    exact ActFrame.settle (stepAct_frame rfl) (fun u hu => hu.advance _) h
  · rw [if_neg hc]
    exact ActFrame.settle (collect_frame s) (fun u hu => hu.finishAwait) h

theorem engineStep_sameRequest {s t : State} (h : engineStep s = .next t) : SameRequest s t := by
  rcases engineStep_effect h with hf | ⟨c, u, -, hf, rfl⟩ <;> exact { hf with }

theorem engineStep_transmits {s t : State} (h : engineStep s = .next t) : Transmits s.ans.tx s t := by
  rcases engineStep_effect h with hf | ⟨c, u, -, hf, rfl⟩ <;> exact hf.wire

theorem engineStep_sessionMoves {s t : State} (h : engineStep s = .next t) : SessionMoves s t := by
  rcases engineStep_effect h with hf | ⟨c, u, -, hf, rfl⟩ <;> exact hf.session

/-! ## The obligations -/

/-- Settles O50: an engine step transmits at most once. -/
theorem txcallsCountsTransmissions : Obligations.TxcallsCountsTransmissions := by
  intro s u t a hm hs
  rw [step_of_nextTurn hm] at hs
  obtain ⟨ms, d, rfl⟩ := nextTurn_snd hm
  exact engineStep_transmits hs

/-- Only the Clock advances `now` (R48). -/
theorem runTurn_now {m : Config.Turn} {s t : State} (h : runTurn m s = .next t) :
    t.now = if m = .clock then s.now + 1 else s.now := by
  cases m with
  | engine a => exact (engineStep_frame h).now
  | hostWrite n v =>
    have hw : hostWriteStep n v s = .next t := h
    rw [hostWriteStep_eq] at hw
    unfold State.start State.hostStore at hw
    split_ifs at hw <;> cases hw <;> rfl
  | peer bs =>
    obtain ⟨x, hx⟩ := peer_receives s bs
    cases hx.symm.trans h
    rfl
  | hostRead n | clock | rst =>
    cases h
    rfl

/-- Settles O48, by the agent that moves. -/
theorem onlyClockAdvancesNow : Obligations.OnlyClockAdvancesNow := by
  intro s u t m hm hs
  rw [step_of_nextTurn hm] at hs
  obtain ⟨ms, d, rfl⟩ := nextTurn_snd hm
  exact (runTurn_now hs).trans rfl

/-- A host write that is no accepted START leaves the latched request and the configuration (R20, R35). -/
theorem hostWriteStep_latched {n : Nat} {v : Word} {s t : State} (h : hostWriteStep n v s = .next t) :
    t.cfg = s.cfg ∧ ((n = 4 → v.getLsbD 0 = true → s.busy = true) →
      t.op = s.op ∧ t.addr0 = s.addr0 ∧ t.len0 = s.len0 ∧ t.pdelay = s.pdelay) := by
  rw [hostWriteStep_eq] at h
  split_ifs at h with hstart <;> cases h
  · by_cases hb : s.busy = true
    · rw [State.start_of_busy hb]
      exact ⟨rfl, fun _ => ⟨rfl, rfl, rfl, rfl⟩⟩
    · rw [State.start, if_neg hb]
      exact ⟨rfl, fun hno => absurd (hno hstart.1 hstart.2) hb⟩
  · unfold State.hostStore
    split_ifs <;> exact ⟨rfl, fun _ => ⟨rfl, rfl, rfl, rfl⟩⟩

/-- Settles O51, by the agent that moves. -/
theorem whoWritesTheRequest : Obligations.WhoWritesTheRequest := by
  intro s u t m hm hs hrst
  rw [step_of_nextTurn hm] at hs
  obtain ⟨ms, d, rfl⟩ := nextTurn_snd hm
  cases m with
  | engine a =>
    have h := engineStep_sameRequest hs
    exact ⟨h.cfg, fun _ => ⟨h.reqOp, h.reqAddr, h.reqLen, h.pwrDelay⟩,
      fun _ => ⟨h.op, h.addr0, h.len0, h.pdelay⟩⟩
  | hostWrite n v =>
    obtain ⟨hcfg, hlatched⟩ := hostWriteStep_latched hs
    refine ⟨hcfg, fun hno => absurd rfl (hno n v), fun hno => hlatched ?_⟩
    rintro rfl hv
    exact hno v rfl hv
  | peer bs =>
    obtain ⟨x, hx⟩ := peer_receives _ bs
    cases hx.symm.trans hs
    exact ⟨rfl, fun _ => ⟨rfl, rfl, rfl, rfl⟩, fun _ => ⟨rfl, rfl, rfl, rfl⟩⟩
  | hostRead n | clock =>
    cases hs
    exact ⟨rfl, fun _ => ⟨rfl, rfl, rfl, rfl⟩, fun _ => ⟨rfl, rfl, rfl, rfl⟩⟩
  | rst => exact absurd rfl hrst

end Sys2Proof.Machine
end

section
/-!
SUPPORT. The invariant as an assertion at each step of the sequencer: what a session has that runs and has not
failed, by the step it stands at, and what it has in teardown.
-/

namespace Sys2Proof

/-- The steps behind the region check (R194). -/
def SeqStep.pastRange : SeqStep → Bool
  | .range => false
  | _ => true

/-- Which requests a step belongs to (R190, R197, R200). -/
def SeqStep.serves : SeqStep → Op → Prop
  | .ld _, op | .opDispatch, op => op ≠ .connectOnly
  | .rd _, op => op = .read
  | .wr _, op => op = .write
  | .er _, op => op = .erase
  | _, _ => True

/-- The working steps at which no chunk loop runs, no command waits to be sent, and nothing is committed. -/
def SeqStep.quiet : SeqStep → Bool
  | .range | .openPort | .hs _ | .ld _ | .opDispatch | .er .build | .er .await => true
  | _ => false

/-- The steps that count a chunk or an erase (R202, R205). -/
def SeqStep.commits : SeqStep → Bool
  | .rd .commit | .wr .commit | .er .commit => true
  | _ => false

end Sys2Proof

namespace Sys2Proof.Machine

/-! ## The assertions -/

/-- The region check (R194). -/
def InRegion (s : State) : Prop :=
  ((s.op = .read ∨ s.op = .write) → s.addr0.toNat + s.len0.toNat ≤ Config.capacity) ∧
    (s.op = .erase → s.addr0.toNat < Config.capacity)

/-- A session that runs and has not failed, whatever step it stands at. -/
structure Running (s : State) : Prop where
  buffers : BuffersOk s
  busy : s.busy = true
  done : s.done = false
  ok : s.ok = false
  failed : s.failed = false
  err : s.err = 0
  ctl : s.ctlAsserted = true → s.portOpen = true
  stream : s.streamOpen = true ↔ s.op = .read ∨ s.op = .write
  t0 : s.t0 ≤ s.now

/-- What the invariant says at a working step `st`, read off the step's tables; `s.step` is not looked at, so that
an action is judged by the assertion of the step it leads to. -/
structure AtStep (st : SeqStep) (s : State) : Prop extends Running s where
  region : st.pastRange = true → InRegion s
  stage : st.serves s.op
  port : s.portOpen = st.portHeld
  session : s.session = st.sessionAt
  sink : s.op = .read → s.sink.length = s.xfer.toNat
  wait : s.waiting = true → st.waits = true
  counts : s.txcalls.toNat = st.sent + s.chunks.toNat

/-- Outside the chunk loops nothing is counted yet. -/
structure Unchunked (st : SeqStep) (s : State) : Prop extends AtStep st s where
  chunks : s.chunks = 0
  xfer : s.xfer = 0

/-- Inside the chunk loops the transfer laws hold (R160, R161). -/
structure Chunked (st : SeqStep) (s : State) : Prop extends AtStep st s where
  total : s.xfer.toNat + s.remaining.toNat = s.len0.toNat
  addr : s.curAddr.toNat = s.addr0.toNat + s.xfer.toNat
  full : s.remaining ≠ 0 → s.xfer.toNat = 512 * s.chunks.toNat
  last : s.remaining = 0 → s.chunks.toNat = chunkCount s.len0.toNat
  chunk : st.inChunk = true → s.remaining ≠ 0 ∧ s.chunkLen.toNat = min s.remaining.toNat 512

/-- What a session that did not fail has done at its end (R211). -/
def SuccessCounts (s : State) : Prop :=
  match s.op with
  | .connectOnly => s.txcalls = 1 ∧ s.chunks = 0 ∧ s.xfer = 0
  | .erase => s.txcalls = 5 ∧ s.chunks = 1 ∧ s.xfer = 0
  | .read | .write =>
    s.xfer = s.len0 ∧ s.chunks.toNat = chunkCount s.len0.toNat ∧
      s.txcalls.toNat = 4 + chunkCount s.len0.toNat

/-- What the invariant says in teardown, at its step `st` (R206). -/
structure Ending (st : TdStep) (s : State) : Prop where
  buffers : BuffersOk s
  busy : s.busy = true
  done : s.done = false
  ok : s.ok = false
  failed : s.failed = true ↔ s.err ≠ 0
  err : legalErr s.op s.err
  port : s.portOpen = true → st = .close
  ctl : s.ctlAsserted = true → s.portOpen = true
  stream : s.streamOpen = true ↔ (s.op = .read ∨ s.op = .write) ∧ st ≠ .finish
  cmode : s.cmode = .idle
  success : s.failed = false → SuccessCounts s
  sink : s.op = .read → s.err ≠ errWord .sinkFail 7 → s.sink.length = s.xfer.toNat
  t0 : s.t0 ≤ s.now
  wait : s.waiting = false
  rejected : RejectedOk s

/-! ## The parts of the invariant, by step -/

theorem stageOk_iff (s : State) : StageOk s ↔ s.step.serves s.op := by
  unfold StageOk SeqStep.serves
  cases s.step <;> exact Iff.rfl

theorem successOk_iff (s : State) :
    SuccessOk s ↔ (s.failed = false → ((∃ t, s.step = .td t) ∨ s.done = true) → SuccessCounts s) := by
  unfold SuccessOk SuccessCounts
  cases s.op <;> exact Iff.rfl

theorem collectorOk_idle {s : State} (h : s.cmode = .idle) : CollectorOk s := by
  unfold CollectorOk
  rw [h]
  trivial

theorem frameOk_of_none {s : State} (h : s.builtFrame = none) : FrameOk s := by
  unfold FrameOk
  rw [h]
  trivial

theorem frameOk_of_some {s : State} {f : List Byte} (h : s.builtFrame = some f) :
    FrameOk s ↔ s.txFrame = f := by
  unfold FrameOk
  rw [h]

/-- With the collector idle a response matters at the commit steps only (R202). -/
theorem responseOk_of_idle {s : State} (h : s.cmode = .idle) (hs : s.step.commits = false) :
    ResponseOk s := by
  refine ⟨fun hf => (nomatch h.symm.trans hf), fun e => ?_, ?_⟩
  · rw [e] at hs
    cases hs
  · rintro (e | e) <;> rw [e] at hs <;> cases hs

theorem builtFrame_of_quiet {s : State} (h : s.step.quiet = true) : s.builtFrame = none := by
  unfold State.builtFrame
  split <;> simp_all [SeqStep.quiet]

theorem imageOk_of_unchunked {s : State} (h : s.step.transferring = false) : ImageOk s := by
  unfold ImageOk
  split
  · next e => rw [e] at h; cases h
  · next e => rw [e] at h; cases h
  · trivial

/-- A diagnostic is not 0: no KIND has the code 0 (R241). -/
theorem errWord_ne_zero (c : Cause) (st : BitVec 4) : errWord c st ≠ 0 := fun e => by
  obtain ⟨h, -⟩ := errWord_fields c st
  rw [e] at h
  revert h
  cases c <;> decide

/-! ## From the invariant to the assertion -/

theorem Inv.running {s : State} (h : Inv s) (hw : s.step.working = true) : Running s := by
  obtain ⟨hb, hd, ho, hf, he⟩ := h.working_facts hw
  obtain ⟨-, -, hctl, hstream⟩ := h.resources
  have hi : s.step ≠ .idle := by intro e; rw [e] at hw; cases hw
  have ht : s.step ≠ .td .finish := by intro e; rw [e] at hw; cases hw
  exact ⟨h.buffers, hb, hd, ho, hf, he, hctl, hstream.trans ⟨fun x => x.1, fun x => ⟨x, hi, ht⟩⟩, h.clock.1⟩

theorem Inv.atStep {s : State} {st : SeqStep} (h : Inv s) (hs : s.step = st) (hw : st.working = true) :
    AtStep st s := by
  subst hs
  obtain ⟨hheld, hopen, -⟩ := h.resources
  refine { h.running hw with
    region := fun hr => h.region ⟨hw, fun e => ?_⟩
    stage := (stageOk_iff s).1 h.stage
    port := Bool.eq_iff_iff.2 ⟨fun hp => (hopen hp).resolve_right fun e => ?_, hheld⟩
    session := h.session.1 hw
    sink := fun hop => h.sink hop (.inl fun e => by rw [e] at hw; cases hw) ?_
    wait := h.clock.2
    counts := h.counts.1 hw }
  · rw [e] at hr
    cases hr
  · rw [e] at hw
    cases hw
  · rw [(h.running hw).err]
    exact (errWord_ne_zero .sinkFail 7).symm

theorem Inv.unchunked {s : State} {st : SeqStep} (h : Inv s) (hs : s.step = st) (hw : st.working = true)
    (ht : st.transferring = false) : Unchunked st s := by
  obtain ⟨-, hzero⟩ := h.counts
  rw [hs] at hzero
  exact { h.atStep hs hw with chunks := (hzero ⟨hw, ht⟩).1, xfer := (hzero ⟨hw, ht⟩).2 }

theorem Inv.chunked {s : State} {st : SeqStep} (h : Inv s) (hs : s.step = st)
    (ht : st.transferring = true) : Chunked st s := by
  have hw : st.working = true := by
    revert ht
    cases st <;> simp [SeqStep.transferring, SeqStep.working]
  subst hs
  obtain ⟨htotal, haddr, hfull, hlast, hchunk⟩ := h.transfer ht
  exact { h.atStep rfl hw with total := htotal, addr := haddr, full := hfull, last := hlast, chunk := hchunk }

theorem Inv.ending {s : State} {st : TdStep} (h : Inv s) (hs : s.step = .td st) : Ending st s := by
  obtain ⟨hbusy, hdone, hok⟩ := h.flags
  obtain ⟨-, hopen, hctl, hstream⟩ := h.resources
  have hi : s.step ≠ .idle := by simp [hs]
  have hb : s.busy = true := hbusy.2 hi
  have hd : s.done = false := Bool.eq_false_iff.2 fun x => by simp [hb] at hdone; simp [hdone] at x
  refine {
    buffers := h.buffers, busy := hb, done := hd
    ok := Bool.eq_false_iff.2 fun x => by simp [hd] at hok; simp [hok] at x
    failed := h.failure.1, err := h.failure.2.1, ctl := hctl
    port := fun hp => ?_
    stream := hstream.trans (by simp [hs])
    cmode := h.cmode_idle (by rw [hs]; rfl)
    success := fun hf => (successOk_iff s).1 h.success hf (.inl ⟨st, hs⟩)
    sink := fun hop => h.sink hop (.inl hi)
    t0 := h.clock.1
    wait := Bool.eq_false_iff.2 fun hw => ?_
    rejected := h.rejected }
  · simpa [hs, SeqStep.portHeld] using hopen hp
  · have := h.clock.2 hw
    rw [hs] at this
    cases this

/-! ## From the assertion to the invariant -/

theorem AtStep.inv {s : State} {st : SeqStep} (a : AtStep st s) (hs : s.step = st)
    (hw : st.working = true) (collector : CollectorOk s) (transfer : TransferOk s) (image : ImageOk s)
    (zero : st.transferring = false → s.chunks = 0 ∧ s.xfer = 0) (frame : FrameOk s)
    (response : ResponseOk s) : Inv s := by
  subst hs
  have hi : s.step ≠ .idle := by intro e; rw [e] at hw; cases hw
  have ht : s.step ≠ .td .finish := by intro e; rw [e] at hw; cases hw
  have hnt : ∀ t, s.step ≠ .td t := by intro t e; rw [e] at hw; cases hw
  have hd := a.done
  exact {
    buffers := a.buffers
    flags := ⟨iff_of_true a.busy hi, fun hx => by simp [hd] at hx, by simp [hd, a.ok]⟩
    failure := ⟨by simp [a.failed, a.err], .inl a.err, fun hf => by simp [a.failed] at hf⟩
    resources := ⟨fun hp => a.port.trans hp, fun hp => .inl (a.port.symm.trans hp), a.ctl,
      a.stream.trans ⟨fun x => ⟨x, hi, ht⟩, fun x => x.1⟩⟩
    collector := collector
    region := fun hx => a.region (by
      have := hx.2
      revert this
      cases s.step <;> simp [SeqStep.pastRange])
    stage := (stageOk_iff s).2 a.stage
    session := ⟨fun _ => a.session, fun e => absurd e hi⟩
    transfer := transfer
    image := image
    counts := ⟨fun _ => a.counts, fun hx => zero hx.2⟩
    success := (successOk_iff s).2 fun _ hx => by
      rcases hx with ⟨t, e⟩ | e
      · exact absurd e (hnt t)
      · simp [hd] at e
    frame := frame
    sink := fun hop _ _ => a.sink hop
    clock := ⟨a.t0, a.wait⟩
    rejected := fun hx => absurd (a.err ▸ hx) errKind_zero
    response := response }

theorem Unchunked.inv {s : State} {st : SeqStep} (u : Unchunked st s) (hs : s.step = st)
    (hw : st.working = true) (ht : st.transferring = false) (collector : CollectorOk s) (frame : FrameOk s)
    (response : ResponseOk s) : Inv s := by
  refine u.toAtStep.inv hs hw collector ?_ ?_ (fun _ => ⟨u.chunks, u.xfer⟩) frame response
  · intro hx
    rw [hs, ht] at hx
    cases hx
  · exact imageOk_of_unchunked (by rw [hs, ht])

theorem Unchunked.inv_quiet {s : State} {st : SeqStep} (u : Unchunked st s) (hs : s.step = st)
    (hq : st.quiet = true) (hc : s.cmode = .idle) : Inv s := by
  have hw : st.working = true ∧ st.transferring = false ∧ st.commits = false := by
    revert hq
    cases st <;> simp [SeqStep.quiet, SeqStep.working, SeqStep.transferring, SeqStep.commits]
    next x => cases x <;> simp
  exact u.inv hs hw.1 hw.2.1 (collectorOk_idle hc) (frameOk_of_none (builtFrame_of_quiet (by rw [hs, hq])))
    (responseOk_of_idle hc (by rw [hs, hw.2.2]))

theorem Chunked.inv {s : State} {st : SeqStep} (u : Chunked st s) (hs : s.step = st)
    (ht : st.transferring = true) (collector : CollectorOk s) (image : ImageOk s) (frame : FrameOk s)
    (response : ResponseOk s) : Inv s := by
  have hw : st.working = true := by
    revert ht
    cases st <;> simp [SeqStep.transferring, SeqStep.working]
  refine u.toAtStep.inv hs hw collector (fun _ => ?_) image (fun hx => ?_) frame response
  · refine ⟨u.total, u.addr, u.full, u.last, ?_⟩
    rw [hs]
    exact u.chunk
  · rw [ht] at hx
    cases hx

theorem Ending.inv {s : State} {st : TdStep} (e : Ending st s) (hs : s.step = .td st) : Inv s where
  buffers := e.buffers
  flags := ⟨by simp [e.busy, hs], fun hd => by simp [e.done] at hd, by simp [e.ok, e.done]⟩
  failure := ⟨e.failed, e.err, fun _ => by rw [hs]; rfl⟩
  resources := ⟨by simp [hs, SeqStep.portHeld], fun hp => .inr (by rw [hs, e.port hp]), e.ctl,
    e.stream.trans (by simp [hs])⟩
  collector := collectorOk_idle e.cmode
  region := by simp [RegionOk, hs, SeqStep.working]
  stage := by simp [StageOk, hs]
  session := by simp [SessionOk, hs, SeqStep.working]
  transfer := by simp [TransferOk, hs, SeqStep.transferring]
  image := by simp [ImageOk, hs]
  counts := by simp [CountsOk, hs, SeqStep.working]
  success := (successOk_iff s).2 fun hf _ => e.success hf
  frame := frameOk_of_none (by simp [State.builtFrame, hs])
  sink := fun hop _ => e.sink hop
  clock := ⟨e.t0, fun hw => by simp [e.wait] at hw⟩
  rejected := e.rejected
  response := responseOk_of_idle e.cmode (by rw [hs]; rfl)

/-! ## A session that fails -/

/-- A step that raises is in R244's list, works, and does not wait; only RANGE raises a RangeError, and only
RD_COMMIT raises SINK_FAIL (R244). -/
theorem raises_table (st : SeqStep) : ∀ c ∈ raises st,
    st ∈ raisingSteps ∧ st.working = true ∧ st.waits = false ∧ (c.kind = .rangeError → st = .range) ∧
      (c = .sinkFail → st = .rd .commit) := by
  cases st with
  | idle | range | openPort | opDispatch => decide
  | hs x | ld x | rd x | wr x | er x | td x => cases x <;> decide

/-- What an action leaves that fails by `c`: its session still runs, the sink holds what is counted unless it is the
sink that failed, and a failed region check has made no call (R208, R247). -/
structure Aborted (c : Cause) (u : State) : Prop extends Running u where
  wait : u.waiting = false
  sink : c ≠ .sinkFail → u.op = .read → u.sink.length = u.xfer.toNat
  rejected : c.kind = .rangeError → u.txcalls = 0 ∧ u.chunks = 0 ∧ u.xfer = 0

/-- A step behind RANGE that raises may abort. -/
theorem AtStep.aborted {st : SeqStep} {s : State} {c : Cause} (a : AtStep st s) (hc : c ∈ raises st)
    (hst : st ≠ .range) : Aborted c s := by
  obtain ⟨-, -, hwaits, hrange, -⟩ := raises_table st c hc
  refine { a with
    wait := Bool.eq_false_iff.2 fun hw => ?_
    sink := fun _ => a.sink
    rejected := fun hk => absurd (hrange hk) hst }
  rw [a.wait hw] at hwaits
  cases hwaits

/-- Taking a failure at its step leads to teardown (R246). -/
theorem Aborted.raise {st : SeqStep} {u : State} {c : Cause} (h : Aborted c u) (hc : c ∈ raises st) :
    Inv (u.raise st c) := by
  obtain ⟨hlist, -, -, -, hsink⟩ := raises_table st c hc
  obtain ⟨hkind, -, -, -⟩ := errWord_fields c (stageOf u.op st)
  have herr : (u.raise st c).err = errWord c (stageOf u.op st) := if_neg (by simp [h.failed])
  refine Ending.inv (st := .close) ?_ rfl
  refine { h with
    failed := iff_of_true rfl (by rw [herr]; exact errWord_ne_zero c _)
    err := ?_
    port := fun _ => rfl
    stream := h.stream.trans (by simp)
    cmode := rfl
    success := fun hf => nomatch hf
    sink := ?_
    rejected := ?_ }
  · rw [herr]
    exact .inr ⟨st, hlist, c, hc, rfl⟩
  · rw [herr]
    exact fun hop hx => h.sink (fun e => hx (by rw [e, hsink e]; rfl)) hop
  · unfold RejectedOk
    rw [herr, hkind]
    intro hx
    refine h.rejected ?_
    revert hx
    cases c <;> decide

end Sys2Proof.Machine
end

section
/-!
SUPPORT. Each action of the engine leads from the assertion of its step to that of the next (R192, R207): O44, O45.
-/

namespace Sys2Proof.Machine

/-! ## Proper actions -/

/-- An outcome that keeps the invariant: no fault, and a refusal only of an answer that is not legal (R132,
R133). -/
def Safe : Out → Prop
  | .next t => Inv t
  | .fault _ => False
  | .refused r => r = .txCountAboveLength ∨ r = .pollAnswerIllegal

/-- An action at step `st` that completes in a state with `ok`, holds in the invariant, fails as R244's table allows,
and stops only on an answer that is not legal. -/
def Act.Proper (st : SeqStep) (ok : State → Prop) : Act → Prop
  | .ok u => ok u
  | .hold u => Inv u
  | .fail c u => c ∈ raises st ∧ Aborted c u
  | .refuse r => r = .txCountAboveLength ∨ r = .pollAnswerIllegal
  | .stop _ => False

theorem Act.Proper.settle {st : SeqStep} {f : State → State} {a : Act}
    (h : a.Proper st fun u => Inv (f u)) : Safe (a.settle st f) := by
  cases a with
  | ok u => exact h
  | hold u => exact h
  | fail c u => exact h.2.raise h.1
  | refuse r => exact h
  | stop f => exact h

theorem Act.Proper.andThen {st : SeqStep} {ok : State → Prop} {g : State → State} {a : Act}
    (h : a.Proper st fun u => ok (g u)) : (a.andThen fun u => .ok (g u)).Proper st ok := by
  cases a <;> exact h

/-- WAIT at a WAIT step: the clock's part of the invariant is all that its entry touches (R141). -/
theorem Inv.waitCall_proper {s : State} {st : SeqStep} {ok : State → Prop} (h : Inv s)
    (hs : s.step = st) (hw : st.waits = true) (arg : WaitArg) (hok : ok { s with waiting := false }) :
    (waitCall arg s).Proper st ok := by
  rcases waitCall_cases arg s with ⟨-, e⟩ | ⟨-, -, e⟩ | ⟨-, -, e⟩ <;> rw [e]
  · exact { h with clock := ⟨le_refl _, fun _ => by rw [← hw, ← hs]⟩ }
  · exact h
  · exact hok

/-- TXWRITE at a transmitting step: a frame that lies in `txbuf`, or a constant table (R44, R132). -/
theorem AtStep.txSend_proper {s : State} {st : SeqStep} {ok : State → Prop} {src : TxSrc}
    (a : AtStep st s) (hc : Cause.writeFail ∈ raises st ∧ Cause.shortWrite ∈ raises st)
    (hst : st ≠ .range) (hlen : src = .frame → s.txlen ≤ 521) (hne : s.txBytes src ≠ [])
    (hok : ok (s.transmitted (s.txBytes src) (s.txBytes src))) : (txSend src s).Proper st ok := by
  rcases txSend_cases src s with ⟨hf, hlong, -⟩ | ⟨-, e⟩
  · exact absurd (hlen hf) (by omega)
  rw [e]
  rcases txWrite_cases (s.txBytes src) s with
    ⟨h0, -⟩ | ⟨-, ⟨c, -, -, e⟩ | ⟨-, e⟩ | ⟨c, -, -, e⟩ | ⟨-, e⟩⟩
  · exact absurd h0 hne
  · rw [e]; exact .inl rfl
  · rw [e]; exact hok
  · rw [e]; exact ⟨hc.2, { a.aborted hc.2 hst with rejected := fun hk => nomatch hk }⟩
  · rw [e]; exact ⟨hc.1, { a.aborted hc.1 hst with rejected := fun hk => nomatch hk }⟩

/-- A constant table at a step outside the chunk loops. -/
theorem Unchunked.txSend_proper {s : State} {st : SeqStep} {ok : State → Prop} {src : TxSrc} {k : Asset}
    (u : Unchunked st s) (hc : Cause.writeFail ∈ raises st ∧ Cause.shortWrite ∈ raises st)
    (hst : st ≠ .range) (hsrc : src ≠ .frame) (hb : s.txBytes src = Codec.assetBytes s.cfg k)
    (hok : ok (s.transmitted (s.txBytes src) (s.txBytes src))) : (txSend src s).Proper st ok :=
  u.toAtStep.txSend_proper hc hst (fun e => absurd e hsrc) (hb ▸ assetBytes_ne_nil s.cfg k) hok

/-- The frame of a chunk or an erase. -/
theorem AtStep.txSend_frame_proper {s : State} {st : SeqStep} {ok : State → Prop} (a : AtStep st s)
    (h : Inv s) (hs : s.step = st) (hst : st = .rd .tx ∨ st = .wr .tx ∨ st = .er .tx)
    (hok : ok (s.transmitted s.txFrame s.txFrame)) : (txSend .frame s).Proper st ok := by
  obtain ⟨h9, h521⟩ := h.txlen_bounds (hs ▸ hst)
  refine a.txSend_proper ?_ ?_ (fun _ => h521) (fun e => ?_) hok
  · rcases hst with rfl | rfl | rfl <;> simp [raises]
  · rcases hst with rfl | rfl | rfl <;> simp
  · have hl : s.txFrame.length = s.txlen := Memory.length_readBytes ..
    have he : s.txFrame = [] := e
    rw [he] at hl
    simp at hl
    omega

/-- TXCALLS does not wrap while a session counts to at most 5 transmissions and 32 chunks (R33, R211). -/
theorem counts_succ {x c : Word} {n : Nat} (h : x.toNat = n + c.toNat) (hn : n ≤ 5)
    (hc : c.toNat ≤ 32) : (x + 1).toNat = n + 1 + c.toNat := by
  rw [BitVec.toNat_add, h]
  simp
  omega

theorem Unchunked.counts_sent {s : State} {st next : SeqStep} (u : Unchunked st s)
    (h : next.sent = st.sent + 1) (h5 : st.sent ≤ 5) : (s.txcalls + 1).toNat = next.sent + s.chunks.toNat := by
  rw [h]
  exact counts_succ u.counts h5 (by rw [u.chunks]; decide)

/-! ## From a running session to teardown -/

/-- A session that reaches TEARDOWN_CLOSE without a failure has done what R211 counts. -/
theorem Running.succeeds {u : State} (r : Running u)
    (hsink : u.op = .read → u.sink.length = u.xfer.toNat) (hw : u.waiting = false)
    (hc : u.cmode = .idle) (hok : SuccessCounts u) : Inv (u.goto (.td .close)) := by
  refine Ending.inv (st := .close) ?_ rfl
  exact { r with
    failed := by simp [r.failed, r.err]
    err := .inl r.err
    port := fun _ => rfl
    stream := r.stream.trans (by simp)
    cmode := hc
    success := fun _ => hok
    sink := fun hop _ => hsink hop
    wait := hw
    rejected := fun hx => absurd (r.err ▸ hx) errKind_zero }

theorem Inv.of_goto {u : State} {st next : SeqStep} (h : successor u st = next) (hi : Inv (u.goto next)) :
    Inv (u.advance st) := by
  rw [State.advance, h]
  exact hi

/-- Where no WAIT is in progress none begins in teardown. -/
theorem AtStep.not_waiting {s : State} {st : SeqStep} (a : AtStep st s) (h : st.waits = false) :
    s.waiting = false := Bool.eq_false_iff.2 fun hw => by
  rw [a.wait hw] at h
  cases h

/-! ## The stages up to OP_DISPATCH -/

theorem Inv.range_proper {s : State} (h : Inv s) (hs : s.step = .range) (hc : s.cmode = .idle) :
    (stepAct .range s).Proper .range fun u => Inv (u.advance .range) := by
  have u := h.unchunked hs rfl rfl
  have hcalls : s.txcalls = 0 := BitVec.eq_of_toNat_eq (by rw [u.counts, u.chunks]; rfl)
  have habort : ∀ c, Aborted c s := fun c =>
    { u with
      wait := u.not_waiting rfl, sink := fun _ => u.sink
      rejected := fun _ => ⟨hcalls, u.chunks, u.xfer⟩ }
  rcases stepAct_range_cases s with e | e | ⟨hreg, hsec, e⟩ <;> rw [e]
  · exact ⟨by simp [raises], habort _⟩
  · exact ⟨by simp [raises], habort _⟩
  · have u' : Unchunked .openPort (s.advance .range) := { u with region := fun _ => ⟨hreg, hsec⟩ }
    exact u'.inv_quiet rfl rfl hc

theorem Inv.openPort_proper {s : State} (h : Inv s) (hs : s.step = .openPort) (hc : s.cmode = .idle) :
    (stepAct .openPort s).Proper .openPort fun u => Inv (u.advance .openPort) := by
  have u := h.unchunked hs rfl rfl
  rcases openCall_cases s with ⟨-, e⟩ | ⟨-, e⟩ <;> rw [stepAct, e]
  · have u' : Unchunked (.hs .assert) (State.advance .openPort { s with
        hist := s.hist ++ [.openPort true], portOpen := true, rxq := [] }) :=
      { u with port := rfl, ctl := fun _ => rfl }
    exact u'.inv_quiet rfl rfl hc
  · exact ⟨by simp [raises], { u.aborted (c := .openFail) (by simp [raises]) (by simp) with
      rejected := fun hk => nomatch hk }⟩

theorem Inv.hs_proper {s : State} {x : HsStep} (h : Inv s) (hs : s.step = .hs x) (hc : s.cmode = .idle)
    (hn : awaitMode (.hs x) = none) :
    (stepAct (.hs x) s).Proper (.hs x) fun u => Inv (u.advance (.hs x)) := by
  have u := h.unchunked hs rfl rfl
  cases x with
  | assert =>
    have u' : Unchunked (.hs .powerWait) (State.advance (.hs .assert) { s with
        hist := s.hist ++ [.ctlAssert], ctlAsserted := true }) :=
      { u with ctl := fun _ => u.port, wait := fun _ => rfl }
    exact u'.inv_quiet rfl rfl hc
  | powerWait =>
    have u' : Unchunked (.hs .train) ({ s with waiting := false }.advance (.hs .powerWait)) :=
      { u with wait := fun hw => nomatch hw }
    exact h.waitCall_proper hs rfl _ (u'.inv_quiet rfl rfl hc)
  | train =>
    have u' : Unchunked (.hs .release) ((s.transmitted (s.txBytes .training) (s.txBytes .training)).advance
        (.hs .train)) := { u with counts := u.counts_sent (next := .hs .release) rfl (by decide) }
    exact u.txSend_proper (k := .training) (by simp [raises]) (by simp) (by simp) rfl
      (u'.inv_quiet rfl rfl hc)
  | release =>
    have u' : Unchunked (.hs .await) (State.advance (.hs .release) { s with
        hist := s.hist ++ [.ctlRelease], ctlAsserted := false }) :=
      { u with ctl := fun hx => nomatch hx }
    exact u'.inv_quiet rfl rfl hc
  | await => cases hn
  | settle =>
    have u' : Unchunked (.hs .flush) ({ s with waiting := false }.advance (.hs .settle)) :=
      { u with wait := fun hw => nomatch hw }
    exact h.waitCall_proper hs rfl _ (u'.inv_quiet rfl rfl hc)
  | flush =>
    by_cases hop : s.op = .connectOnly
    · have hcalls : s.txcalls = 1 := BitVec.eq_of_toNat_eq (by rw [u.counts, u.chunks]; rfl)
      have hok : SuccessCounts { flushCall s with session := .connected } := by
        unfold SuccessCounts
        rw [show (flushCall s).op = .connectOnly from hop]
        exact ⟨hcalls, u.chunks, u.xfer⟩
      have r : Running { flushCall s with session := .connected } := { u with }
      exact Inv.of_goto (if_pos hop) (r.succeeds u.sink (u.not_waiting rfl) hc hok)
    · have u' : Unchunked (.ld .announceTx)
          (State.goto (.ld .announceTx) { flushCall s with session := .connected }) :=
        { u with session := rfl, stage := hop }
      exact Inv.of_goto (if_neg hop) (u'.inv_quiet rfl rfl hc)

theorem Inv.ld_proper {s : State} {x : LdStep} (h : Inv s) (hs : s.step = .ld x) (hc : s.cmode = .idle)
    (hn : awaitMode (.ld x) = none) :
    (stepAct (.ld x) s).Proper (.ld x) fun u => Inv (u.advance (.ld x)) := by
  have u := h.unchunked hs rfl rfl
  cases x with
  | announceTx =>
    have u' : Unchunked (.ld .announceAwait)
        ((s.transmitted (s.txBytes .announce) (s.txBytes .announce)).advance (.ld .announceTx)) :=
      { u with counts := u.counts_sent (next := .ld .announceAwait) rfl (by decide) }
    exact u.txSend_proper (k := .announce) (by simp [raises]) (by simp) (by simp) rfl
      (u'.inv_quiet rfl rfl hc)
  | preUpload =>
    have u' : Unchunked (.ld .uploadTx) ({ s with waiting := false }.advance (.ld .preUpload)) :=
      { u with wait := fun hw => nomatch hw }
    exact h.waitCall_proper hs rfl _ (u'.inv_quiet rfl rfl hc)
  | uploadTx =>
    have u' : Unchunked (.ld .uploadAwait)
        ((s.transmitted (s.txBytes .loader) (s.txBytes .loader)).advance (.ld .uploadTx)) :=
      { u with counts := u.counts_sent (next := .ld .uploadAwait) rfl (by decide) }
    exact u.txSend_proper (k := .loader) (by simp [raises]) (by simp) (by simp) rfl
      (u'.inv_quiet rfl rfl hc)
  | preExec =>
    have u' : Unchunked (.ld .execTx) ({ s with waiting := false }.advance (.ld .preExec)) :=
      { u with wait := fun hw => nomatch hw }
    exact h.waitCall_proper hs rfl _ (u'.inv_quiet rfl rfl hc)
  | execTx =>
    have u' : Unchunked (.ld .execAwait)
        ((s.transmitted (s.txBytes .execute) (s.txBytes .execute)).advance (.ld .execTx)) :=
      { u with counts := u.counts_sent (next := .ld .execAwait) rfl (by decide) }
    exact u.txSend_proper (k := .execute) (by simp [raises]) (by simp) (by simp) rfl
      (u'.inv_quiet rfl rfl hc)
  | final =>
    have u' : Unchunked .opDispatch
        ({ s with waiting := false, session := .ready }.advance (.ld .final)) :=
      { u with wait := fun hw => (nomatch hw), session := rfl }
    exact Act.Proper.andThen (ok := fun u => Inv (State.advance (.ld .final) u))
      (g := fun u => { u with session := .ready }) (h.waitCall_proper hs rfl _ (u'.inv_quiet rfl rfl hc))
  | announceAwait | uploadAwait | execAwait => cases hn

/-- OP_DISPATCH starts the transfer laws: nothing is committed, and the whole region remains (R200). -/
theorem Unchunked.starts_transfer {s : State} {st : SeqStep} {x : Session} (u : Unchunked .opDispatch s)
    (hst : st = .rd .next ∨ st = .wr .next) (hop : st.serves s.op) (hx : x = st.sessionAt) :
    Chunked st { s with session := x, curAddr := s.addr0, remaining := s.len0, step := st } := by
  have hzero : s.xfer.toNat = 0 ∧ s.chunks.toNat = 0 := by rw [u.xfer, u.chunks]; exact ⟨rfl, rfl⟩
  have htab : st.portHeld = true ∧ st.pastRange = true ∧ st.waits = false ∧ st.sent = 4 ∧
      st.inChunk = false := by rcases hst with rfl | rfl <;> exact ⟨rfl, rfl, rfl, rfl, rfl⟩
  obtain ⟨hport, -, hwaits, hsent, hin⟩ := htab
  refine { u with
    region := fun _ => u.region rfl, stage := hop, session := hx
    port := u.port.trans hport.symm
    wait := fun hw => nomatch (u.not_waiting rfl).symm.trans hw
    counts := ?_, total := ?_, addr := ?_, full := ?_, last := ?_, chunk := fun hc => ?_ }
  · rw [hsent]
    exact u.counts
  · simp [hzero.1]
  · simp [hzero.1]
  · simp [hzero.1, hzero.2]
  · intro h0
    have hl : s.len0 = 0 := h0
    simp [hzero.2, hl, chunkCount]
  · rw [hin] at hc
    cases hc

theorem Inv.dispatch_proper {s : State} (h : Inv s) (hs : s.step = .opDispatch) (hc : s.cmode = .idle) :
    (stepAct .opDispatch s).Proper .opDispatch fun u => Inv (u.advance .opDispatch) := by
  have u := h.unchunked hs rfl rfl
  rcases stepAct_dispatch_cases s with ⟨hop, -⟩ | ⟨hop, e⟩ | ⟨hop, e⟩ | ⟨hop, e⟩
  · exact absurd hop u.stage
  · rw [e]
    exact Inv.of_goto (by simp only [successor, hop]) <|
      (u.starts_transfer (.inl rfl) hop rfl).inv rfl rfl (collectorOk_idle hc) trivial trivial
        (responseOk_of_idle hc rfl)
  · rw [e]
    exact Inv.of_goto (by simp only [successor, hop]) <|
      (u.starts_transfer (.inr rfl) hop rfl).inv rfl rfl (collectorOk_idle hc) trivial trivial
        (responseOk_of_idle hc rfl)
  · rw [e]
    have u' : Unchunked (.er .build) (State.goto (.er .build) { s with session := .erasing }) :=
      { u with session := rfl, stage := hop }
    exact Inv.of_goto (by simp only [successor, hop]) (u'.inv_quiet rfl rfl hc)

end Sys2Proof.Machine
end

section
/-!
SUPPORT. The chunk loops, the erase and teardown (R201 to R206): the rest of the steps with the collector idle.
-/

namespace Sys2Proof.Machine

/-! ## The numbers of the chunk loops -/

theorem State.nextChunkLen_toNat (s : State) : s.nextChunkLen.toNat = min s.remaining.toNat 512 := by
  simp only [State.nextChunkLen, BitVec.toNat_ofNat, Config.chunkMax_eq]
  omega

theorem remaining_pos {s : State} (h : s.remaining ≠ 0) : 0 < s.remaining.toNat :=
  Nat.pos_of_ne_zero fun e => h (BitVec.eq_of_toNat_eq e)

/-- A READ or WRITE stays inside the flash (R161, R194). -/
theorem Chunked.in_flash {s : State} {st : SeqStep} (c : Chunked st s) (ht : st.transferring = true) :
    s.addr0.toNat + s.len0.toNat ≤ 16384 := by
  have hstage := c.stage
  cases st with
  | rd x => exact (c.region rfl).1 (.inl hstage)
  | wr x => exact (c.region rfl).1 (.inr hstage)
  | _ => cases ht

/-- With bytes remaining at most 32 chunks are committed (R160, R161). -/
theorem Chunked.chunks_le {s : State} {st : SeqStep} (c : Chunked st s) (ht : st.transferring = true)
    (hr : s.remaining ≠ 0) : s.chunks.toNat ≤ 32 := by
  have h1 := c.in_flash ht
  have h2 := c.full hr
  have h3 := c.total
  omega

/-- The numbers of a commit: the chunk's length moves from what remains to what is transferred, and nothing wraps
(R160, R201, R203). -/
theorem Chunked.commit_numbers {s : State} {st : SeqStep} (c : Chunked st s)
    (ht : st.transferring = true) (hin : st.inChunk = true) :
    0 < s.chunkLen.toNat ∧ s.chunkLen.toNat = min s.remaining.toNat 512 ∧
      s.commitChunk.xfer.toNat = s.xfer.toNat + s.chunkLen.toNat ∧
      s.commitChunk.remaining.toNat = s.remaining.toNat - s.chunkLen.toNat ∧
      s.commitChunk.curAddr.toNat = s.curAddr.toNat + s.chunkLen.toNat ∧
      s.commitChunk.chunks.toNat = s.chunks.toNat + 1 := by
  obtain ⟨hr, hl⟩ := c.chunk hin
  have hpos := remaining_pos hr
  have h1 := c.in_flash ht
  have h2 := c.chunks_le ht hr
  have h3 := c.total
  have h4 := c.addr
  have hw : (s.chunkLen.setWidth 32).toNat = s.chunkLen.toNat :=
    BitVec.toNat_setWidth_of_le (by decide)
  refine ⟨by omega, hl, ?_, ?_, ?_, ?_⟩
  · rw [State.commitChunk_xfer, BitVec.toNat_add, hw]
    omega
  · rw [State.commitChunk_remaining, BitVec.toNat_sub_of_le (BitVec.le_def.2 (by omega)), hw]
  · rw [State.commitChunk_curAddr, BitVec.toNat_add, hw]
    omega
  · rw [State.commitChunk_chunks, BitVec.toNat_add]
    simp
    omega

/-- A committed chunk keeps the transfer laws at the loop's head (R160, R161, R202). -/
theorem Chunked.commitChunk {s : State} {st next : SeqStep} {sink : List Byte} {hist : List Event}
    (c : Chunked st s)
    (hst : (st = .rd .commit ∧ next = .rd .next) ∨ (st = .wr .commit ∧ next = .wr .next))
    (hsink : s.op = .read → sink.length = s.sink.length + s.chunkLen.toNat) :
    Chunked next ({ s with sink := sink, hist := hist }.commitChunk.goto next) := by
  have htab : st.transferring = true ∧ st.inChunk = true ∧ st.sent = 5 ∧ next.sent = 4 ∧
      next.inChunk = false ∧ st.waits = false := by
    rcases hst with ⟨rfl, rfl⟩ | ⟨rfl, rfl⟩ <;> exact ⟨rfl, rfl, rfl, rfl, rfl, rfl⟩
  obtain ⟨ht, hin, hsent, hnext, hnin, hwaits⟩ := htab
  obtain ⟨hlpos, hl, hx, hr, ha, hn⟩ := c.commit_numbers ht hin
  have htotal := c.total
  have haddr := c.addr
  have hfull := c.full (c.chunk hin).1
  have hcounts := c.counts
  have hsum : s.commitChunk.xfer.toNat + s.commitChunk.remaining.toNat = s.len0.toNat := by omega
  have hcall : s.txcalls.toNat = next.sent + s.commitChunk.chunks.toNat := by omega
  have hbytes : s.op = .read → sink.length = s.commitChunk.xfer.toNat := fun hop => by
    rw [hsink hop, c.sink hop, hx]
  refine { c with
    region := fun _ => c.region ?_, stage := ?_, port := c.port.trans ?_
    session := c.session.trans ?_, sink := hbytes
    wait := fun hw => nomatch (c.not_waiting hwaits).symm.trans hw
    counts := hcall, total := hsum
    addr := show s.commitChunk.curAddr.toNat = s.addr0.toNat + s.commitChunk.xfer.toNat by omega
    full := fun hne => ?_, last := fun h0 => ?_
    chunk := fun hc => nomatch hnin.symm.trans hc }
  · rcases hst with ⟨rfl, rfl⟩ | ⟨rfl, rfl⟩ <;> rfl
  · have hstage := c.stage
    rcases hst with ⟨rfl, rfl⟩ | ⟨rfl, rfl⟩ <;> exact hstage
  · rcases hst with ⟨rfl, rfl⟩ | ⟨rfl, rfl⟩ <;> rfl
  · rcases hst with ⟨rfl, rfl⟩ | ⟨rfl, rfl⟩ <;> rfl
  · have hpos : 0 < s.commitChunk.remaining.toNat := remaining_pos hne
    change s.commitChunk.xfer.toNat = 512 * s.commitChunk.chunks.toNat
    omega
  · have hz : s.commitChunk.remaining.toNat = 0 := congrArg BitVec.toNat h0
    change s.commitChunk.chunks.toNat = chunkCount s.len0.toNat
    simp only [chunkCount, Config.chunkMax_eq]
    omega

/-- With nothing remaining the transfer has done what R211 counts. -/
theorem Chunked.successCounts {s : State} {st : SeqStep} (c : Chunked st s)
    (hst : st = .rd .next ∨ st = .wr .next) (h0 : s.remaining = 0) : SuccessCounts s := by
  have hop : s.op = .read ∨ s.op = .write := by
    have hstage := c.stage
    rcases hst with rfl | rfl
    · exact .inl hstage
    · exact .inr hstage
  have hsent : st.sent = 4 := by rcases hst with rfl | rfl <;> rfl
  have htotal := c.total
  have hcounts := c.counts
  have hlast := c.last h0
  rw [h0] at htotal
  rw [hsent, hlast] at hcounts
  unfold SuccessCounts
  rcases hop with hop | hop <;> rw [hop] <;> exact ⟨BitVec.eq_of_toNat_eq htotal, hlast, hcounts⟩

/-! ## The frame to be sent -/

theorem frameOk_rd {s : State} (hs : s.step = .rd .settle ∨ s.step = .rd .tx) :
    FrameOk s ↔ s.txFrame = Codec.stamped (Codec.readBody s.cfg s.curAddr s.chunkLen) :=
  frameOk_of_some (by rcases hs with hs | hs <;> simp [State.builtFrame, hs])

theorem frameOk_wr {s : State} (hs : s.step = .wr .settle ∨ s.step = .wr .tx) :
    FrameOk s ↔ s.txFrame = Codec.stamped (Codec.writeHeader s.cfg s.curAddr ++ s.imageBytes) :=
  frameOk_of_some (by rcases hs with hs | hs <;> simp [State.builtFrame, hs])

/-- The body of an erase command (R166). -/
def State.eraseBody (s : State) : List Byte :=
  if s.addr0 = 0 then Codec.eraseAllBody s.cfg else Codec.eraseSectorBody s.cfg s.addr0

theorem frameOk_er {s : State} (hs : s.step = .er .settle ∨ s.step = .er .tx) :
    FrameOk s ↔ s.txFrame = Codec.stamped s.eraseBody := by
  refine frameOk_of_some ?_
  unfold State.eraseBody
  rcases hs with hs | hs <;> simp only [State.builtFrame, hs] <;> split_ifs <;> rfl

/-! ## READ -/

theorem Inv.rd_proper {s : State} {x : RdStep} (h : Inv s) (hs : s.step = .rd x) (hc : s.cmode = .idle)
    (hn : awaitMode (.rd x) = none) :
    (stepAct (.rd x) s).Proper (.rd x) fun u => Inv (u.advance (.rd x)) := by
  have c := h.chunked hs rfl
  have hcol : ∀ {u : State}, u.cmode = s.cmode → CollectorOk u := fun e => collectorOk_idle (e.trans hc)
  cases x with
  | next =>
    rcases stepAct_rdNext_cases s with ⟨h0, e⟩ | ⟨h0, e⟩ <;> rw [e]
    · exact Inv.of_goto (if_pos h0)
        (c.toRunning.succeeds c.sink (c.not_waiting rfl) hc (c.successCounts (.inl rfl) h0))
    · obtain ⟨u, hu, hb⟩ := buildTx_built (body := Codec.readBody s.cfg s.curAddr s.nextChunkLen)
        { s with chunkLen := s.nextChunkLen } (by simp)
      obtain ⟨m, n, rfl⟩ : ∃ m n, u = { s with chunkLen := s.nextChunkLen, txbuf := m, txlen := n } :=
        ⟨_, _, hb.eq⟩
      have hm : m.wf = true := hb.wf c.buffers.1
      have c' : Chunked (.rd .settle) (State.goto (.rd .settle)
          { s with chunkLen := s.nextChunkLen, txbuf := m, txlen := n }) :=
        { c with
          buffers := ⟨hm, c.buffers.2⟩, wait := fun _ => rfl
          chunk := fun _ => ⟨h0, s.nextChunkLen_toNat⟩ }
      rw [hu]
      exact Inv.of_goto (if_neg h0) (c'.inv rfl rfl (hcol rfl) trivial ((frameOk_rd (.inl rfl)).2 hb.frame)
        (responseOk_of_idle hc rfl))
  | settle =>
    have c' : Chunked (.rd .tx) ({ s with waiting := false }.advance (.rd .settle)) :=
      { c with wait := fun hw => nomatch hw }
    exact h.waitCall_proper hs rfl _ (c'.inv rfl rfl (hcol rfl) trivial
      ((frameOk_rd (.inr rfl)).2 ((frameOk_rd (.inl hs)).1 h.frame)) (responseOk_of_idle hc rfl))
  | tx =>
    have hcalls := counts_succ c.counts (by decide) (c.chunks_le rfl (c.chunk rfl).1)
    have c' : Chunked (.rd .await) ((s.transmitted s.txFrame s.txFrame).advance (.rd .tx)) :=
      { c with counts := hcalls }
    exact c.txSend_frame_proper h hs (.inl rfl)
      (c'.inv rfl rfl (hcol rfl) trivial trivial (responseOk_of_idle hc rfl))
  | await => cases hn
  | commit =>
    refine Act.Proper.andThen (g := State.commitChunk) ?_
    obtain ⟨hpos, hl, -⟩ := c.commit_numbers rfl rfl
    rcases sinkCall_cases s with ⟨h0, -⟩ | ⟨-, -, ⟨-, e⟩ | ⟨-, e⟩⟩
    · omega
    · rw [e]
      have c' := c.commitChunk (sink := s.sink ++ s.rxPayload) (hist := s.hist ++ [.sinkWrite s.rxPayload true])
        (.inl ⟨rfl, rfl⟩) fun _ => by simp [State.rxPayload]
      exact c'.inv rfl rfl (hcol rfl) trivial trivial (responseOk_of_idle hc rfl)
    · rw [e]
      exact ⟨by simp [raises], { c.aborted (c := .sinkFail) (by simp [raises]) (by simp) with
        sink := fun hk => absurd rfl hk }⟩

/-! ## WRITE -/

theorem Inv.wr_proper {s : State} {x : WrStep} (h : Inv s) (hs : s.step = .wr x) (hc : s.cmode = .idle)
    (hn : awaitMode (.wr x) = none) :
    (stepAct (.wr x) s).Proper (.wr x) fun u => Inv (u.advance (.wr x)) := by
  have c := h.chunked hs rfl
  have hcol : ∀ {u : State}, u.cmode = s.cmode → CollectorOk u := fun e => collectorOk_idle (e.trans hc)
  cases x with
  | next =>
    rcases stepAct_wrNext_cases s with ⟨h0, e⟩ | ⟨h0, e⟩ <;> rw [e]
    · exact Inv.of_goto (if_pos h0)
        (c.toRunning.succeeds c.sink (c.not_waiting rfl) hc (c.successCounts (.inr rfl) h0))
    · have c' : Chunked (.wr .src) (State.goto (.wr .src) { s with chunkLen := s.nextChunkLen, widx := 0 }) :=
        { c with chunk := fun _ => ⟨h0, s.nextChunkLen_toNat⟩ }
      have himage : 0 < s.nextChunkLen.toNat := by
        have := remaining_pos h0
        rw [s.nextChunkLen_toNat]
        omega
      exact Inv.of_goto (if_neg h0) (c'.inv rfl rfl (hcol rfl) himage trivial (responseOk_of_idle hc rfl))
  | src =>
    obtain ⟨-, hl, -⟩ := c.commit_numbers rfl rfl
    have hidx : s.widx < s.chunkLen.toNat := by
      have := h.image
      unfold ImageOk at this
      rwa [hs] at this
    rcases srcStep_cases s with ⟨b, -, hw, e⟩ | ⟨b, -, hlong, -⟩ | ⟨-, e⟩ | ⟨-, e⟩
    · rw [stepAct, e]
      have hm : (Memory.write (8 + s.widx) b s.txbuf).wf = true := Memory.wf_write c.buffers.1 (by simp; omega)
      by_cases hmore : s.widx + 1 < s.chunkLen.toNat
      · have c' : Chunked (.wr .src) (State.goto (.wr .src) { s with
            txbuf := Memory.write (8 + s.widx) b s.txbuf, widx := s.widx + 1
            hist := s.hist ++ [.srcRead (.byte b)] }) := { c with buffers := ⟨hm, c.buffers.2⟩ }
        exact Inv.of_goto (if_pos hmore) (c'.inv rfl rfl (hcol rfl) hmore trivial (responseOk_of_idle hc rfl))
      · have c' : Chunked (.wr .build) (State.goto (.wr .build) { s with
            txbuf := Memory.write (8 + s.widx) b s.txbuf, widx := s.widx + 1
            hist := s.hist ++ [.srcRead (.byte b)] }) := { c with buffers := ⟨hm, c.buffers.2⟩ }
        have himage : s.widx + 1 = s.chunkLen.toNat := by omega
        exact Inv.of_goto (if_neg hmore) (c'.inv rfl rfl (hcol rfl) himage trivial (responseOk_of_idle hc rfl))
    · omega
    · rw [stepAct, e]
      exact ⟨by simp [raises], { c.aborted (c := .srcShort) (by simp [raises]) (by simp) with
        rejected := fun hk => nomatch hk }⟩
    · rw [stepAct, e]
      exact ⟨by simp [raises], { c.aborted (c := .srcFail) (by simp [raises]) (by simp) with
        rejected := fun hk => nomatch hk }⟩
  | build =>
    obtain ⟨-, hl, -⟩ := c.commit_numbers rfl rfl
    obtain ⟨u, hu, hb, himage⟩ := buildWrite_image (s := s) (by omega)
    obtain ⟨m, n, rfl⟩ : ∃ m n, u = { s with txbuf := m, txlen := n } := ⟨_, _, hb.eq⟩
    have hm : m.wf = true := hb.wf c.buffers.1
    have c' : Chunked (.wr .settle) (State.advance (.wr .build) { s with txbuf := m, txlen := n }) :=
      { c with buffers := ⟨hm, c.buffers.2⟩, wait := fun _ => rfl }
    rw [stepAct, hu]
    refine c'.inv rfl rfl (hcol rfl) trivial ((frameOk_wr (.inl rfl)).2 (hb.frame.trans ?_))
      (responseOk_of_idle hc rfl)
    rw [← himage]
    rfl
  | settle =>
    have c' : Chunked (.wr .tx) ({ s with waiting := false }.advance (.wr .settle)) :=
      { c with wait := fun hw => nomatch hw }
    exact h.waitCall_proper hs rfl _ (c'.inv rfl rfl (hcol rfl) trivial
      ((frameOk_wr (.inr rfl)).2 ((frameOk_wr (.inl hs)).1 h.frame)) (responseOk_of_idle hc rfl))
  | tx =>
    have hcalls := counts_succ c.counts (by decide) (c.chunks_le rfl (c.chunk rfl).1)
    have c' : Chunked (.wr .await) ((s.transmitted s.txFrame s.txFrame).advance (.wr .tx)) :=
      { c with counts := hcalls }
    exact c.txSend_frame_proper h hs (.inr (.inl rfl))
      (c'.inv rfl rfl (hcol rfl) trivial trivial (responseOk_of_idle hc rfl))
  | await => cases hn
  | commit =>
    have hnoread : s.op ≠ .read := fun e => nomatch e.symm.trans c.stage
    have c' := c.commitChunk (sink := s.sink) (hist := s.hist) (.inr ⟨rfl, rfl⟩) fun e => absurd e hnoread
    exact c'.inv rfl rfl (hcol rfl) trivial trivial (responseOk_of_idle hc rfl)

/-! ## ERASE -/

/-- ER_BUILD leaves the erase command in `txbuf` (R164 to R166). -/
theorem stepAct_erBuild_built (s : State) :
    ∃ u, stepAct (.er .build) s = .ok u ∧ Built s.eraseBody s u := by
  unfold State.eraseBody
  rcases stepAct_erBuild_cases s with ⟨h0, e⟩ | ⟨h0, e⟩ <;> rw [e]
  · rw [if_pos h0]
    exact buildTx_built s (by simp)
  · rw [if_neg h0]
    exact buildTx_built s (by simp)

theorem Inv.er_proper {s : State} {x : ErStep} (h : Inv s) (hs : s.step = .er x) (hc : s.cmode = .idle)
    (hn : awaitMode (.er x) = none) :
    (stepAct (.er x) s).Proper (.er x) fun u => Inv (u.advance (.er x)) := by
  have u := h.unchunked hs rfl rfl
  have hcol : ∀ {v : State}, v.cmode = s.cmode → CollectorOk v := fun e => collectorOk_idle (e.trans hc)
  cases x with
  | build =>
    obtain ⟨v, hv, hb⟩ := stepAct_erBuild_built s
    obtain ⟨m, n, rfl⟩ : ∃ m n, v = { s with txbuf := m, txlen := n } := ⟨_, _, hb.eq⟩
    have hm : m.wf = true := hb.wf u.buffers.1
    have u' : Unchunked (.er .settle) (State.advance (.er .build) { s with txbuf := m, txlen := n }) :=
      { u with buffers := ⟨hm, u.buffers.2⟩, wait := fun _ => rfl }
    rw [hv]
    exact u'.inv rfl rfl rfl (hcol rfl) ((frameOk_er (.inl rfl)).2 hb.frame) (responseOk_of_idle hc rfl)
  | settle =>
    have u' : Unchunked (.er .tx) ({ s with waiting := false }.advance (.er .settle)) :=
      { u with wait := fun hw => nomatch hw }
    exact h.waitCall_proper hs rfl _ (u'.inv rfl rfl rfl (hcol rfl)
      ((frameOk_er (.inr rfl)).2 ((frameOk_er (.inl hs)).1 h.frame)) (responseOk_of_idle hc rfl))
  | tx =>
    have u' : Unchunked (.er .await) ((s.transmitted s.txFrame s.txFrame).advance (.er .tx)) :=
      { u with counts := u.counts_sent (next := .er .await) rfl (by decide) }
    exact u.txSend_frame_proper h hs (.inr (.inr rfl)) (u'.inv_quiet rfl rfl hc)
  | await => cases hn
  | commit =>
    have hcalls : s.txcalls = 5 := BitVec.eq_of_toNat_eq (by rw [u.counts, u.chunks]; rfl)
    have hok : SuccessCounts { s with chunks := 1 } := by
      unfold SuccessCounts
      rw [show ({ s with chunks := 1 } : State).op = .erase from u.stage]
      exact ⟨hcalls, rfl, u.xfer⟩
    have r : Running { s with chunks := 1 } := { u with }
    exact r.succeeds u.sink (u.not_waiting rfl) hc hok

/-! ## Teardown -/

/-- FINISH leaves the idle block with the results of its session (R206, R250). -/
theorem Ending.endSession {s : State} (e : Ending .finish s) : Inv s.endSession where
  buffers := e.buffers
  flags := ⟨by simp, fun _ => rfl, by simp⟩
  failure := ⟨e.failed, e.err, fun _ => rfl⟩
  resources := ⟨fun hx => (nomatch hx), fun hx => (nomatch e.port hx), e.ctl, e.stream.trans (by simp)⟩
  collector := collectorOk_idle e.cmode
  region := fun hx => nomatch hx.1
  stage := trivial
  session := ⟨fun hx => (nomatch hx), fun _ => rfl⟩
  transfer := fun hx => nomatch hx
  image := trivial
  counts := ⟨fun hx => (nomatch hx), fun hx => (nomatch hx.1)⟩
  success := (successOk_iff _).2 fun hf _ => e.success hf
  frame := trivial
  sink := fun hop _ => e.sink hop
  clock := ⟨e.t0, fun hx => (nomatch e.wait.symm.trans hx)⟩
  rejected := e.rejected
  response := responseOk_of_idle e.cmode rfl

theorem Inv.td_proper {s : State} {x : TdStep} (h : Inv s) (hs : s.step = .td x) :
    (stepAct (.td x) s).Proper (.td x) fun u => Inv (u.advance (.td x)) := by
  have e := h.ending hs
  cases x with
  | close =>
    have hstream : s.streamOpen = true ↔ (s.op = .read ∨ s.op = .write) ∧ TdStep.stream ≠ .finish :=
      e.stream.trans (and_congr_right fun _ => iff_of_true (by simp) (by simp))
    have e' : Ending .stream ((closeCall s).advance (.td .close)) := by
      unfold closeCall
      split_ifs with hp
      · exact { e with port := fun hx => (nomatch hx), ctl := fun hx => (nomatch hx), stream := hstream }
      · exact { e with port := fun hx => absurd hx hp, stream := hstream }
    exact e'.inv rfl
  | stream =>
    have e' : Ending .finish ((streamCloseCall s).advance (.td .stream)) := by
      unfold streamCloseCall
      split_ifs with hp
      · exact { e with
          port := fun hx => (nomatch e.port hx), stream := iff_of_false Bool.false_ne_true fun hx => hx.2 rfl }
      · exact { e with port := fun hx => (nomatch e.port hx), stream := iff_of_false hp fun hx => hx.2 rfl }
    exact e'.inv rfl
  | finish => exact e.endSession

end Sys2Proof.Machine
end

section
/-!
SUPPORT. The collect step keeps the invariant (R143 to R149), and with it every step of every agent: O44, O45; what
follows for SESSION and ERR: O54, O55.
-/

namespace Sys2Proof.Machine

/-! ## The awaits -/

/-- The await in progress is the one of its step (R43, R142). -/
theorem CollectorOk.await {s : State} (h : CollectorOk s) (hc : s.cmode ≠ .idle) :
    ∃ sh, awaitMode s.step = some (s.cmode, sh) ∧ (s.cmode = .frame → s.cshape = sh) := by
  cases hm : s.cmode with
  | idle => exact absurd hm hc
  | eq =>
    obtain ⟨hs, -⟩ := (collectorOk_eq hm).1 h
    exact ⟨.read, by rw [hs]; rfl, fun e => nomatch e⟩
  | ack =>
    obtain ⟨hs | hs, -⟩ := (collectorOk_ack hm).1 h <;> exact ⟨.read, by rw [hs]; rfl, fun e => nomatch e⟩
  | count =>
    obtain ⟨hs, -⟩ := (collectorOk_count hm).1 h
    exact ⟨.read, by rw [hs]; rfl, fun e => nomatch e⟩
  | frame =>
    cases hsh : s.cshape with
    | read =>
      obtain ⟨hs, -⟩ := (collectorOk_read hm hsh).1 h
      exact ⟨.read, by rw [hs]; rfl, fun _ => rfl⟩
    | ack9 =>
      obtain ⟨hs | hs, -⟩ := (collectorOk_ack9 hm hsh).1 h <;> exact ⟨.ack9, by rw [hs]; rfl, fun _ => rfl⟩

/-- What every await step may raise: READ_FAIL, and the timeout of its mode (R143, R244). -/
theorem await_raises {st : SeqStep} {m : CMode} {sh : Shape} (h : awaitMode st = some (m, sh)) :
    st.working = true ∧ st ≠ .range ∧ Cause.readFail ∈ raises st ∧ m.timeoutCause ∈ raises st := by
  rcases awaitMode_cases h with
    ⟨rfl, rfl⟩ | ⟨rfl, rfl | rfl⟩ | ⟨rfl, rfl⟩ | ⟨rfl, rfl, rfl⟩ | ⟨rfl, rfl, rfl | rfl⟩ <;> decide

/-- A failed await may abort at its step (R149). -/
theorem AtStep.failAwait_proper {s : State} {st : SeqStep} {ok : State → Prop} {c : Cause}
    (a : AtStep st s) (hc : c ∈ raises st) (hst : st ≠ .range) {hist : List Event} {rx : Memory} {i : Nat}
    (hrx : rx.wf = true) :
    (failAwait c { s with hist := hist, rxbuf := rx, cidx := i }).Proper st ok :=
  ⟨hc, { a.aborted hc hst with buffers := ⟨a.buffers.1, hrx⟩ }⟩

/-- The entry of an await (R142). -/
theorem Inv.enters {s t : State} (h : Inv s) (he : Entered s t) : Inv t := by
  have hcol : CollectorOk t := by
    refine (he.awaitOk ?_).collector
    obtain ⟨m, sh, budget, -, -, -, e⟩ := he
    rw [e]
    exact h.flags.1
  obtain ⟨m, sh, budget, -, -, -, e⟩ := he
  rw [e] at hcol ⊢
  exact { h with
    collector := hcol
    clock := ⟨le_refl _, h.clock.2⟩
    response := ⟨fun _ => ⟨fun h0 => absurd h0 (Nat.lt_irrefl 0), fun h1 => absurd h1 (by simp),
      fun _ h8 => absurd h8 (by simp)⟩, h.response.2⟩ }

/-! ## A byte of a frame -/

/-- Storing the next byte of a frame keeps what its bytes have passed, if the byte passes its own check (R147). -/
theorem State.rxHeaderOk.store {s : State} {sh : Shape} {b : Byte} (h : s.rxHeaderOk sh s.cidx)
    (h0 : s.cidx = 0 → b = s.cfg.raw.marker) (h1 : s.cidx = 1 → b = Config.statusOk)
    (h7 : sh = .read → s.cidx = 7 → Codec.rd16 ((Memory.write s.cidx b s.rxbuf).read 6)
      ((Memory.write s.cidx b s.rxbuf).read 7) = s.chunkLen) :
    State.rxHeaderOk { s with rxbuf := Memory.write s.cidx b s.rxbuf } sh (s.cidx + 1) := by
  obtain ⟨hm, hst, hlen⟩ := h
  have hkeep : ∀ x, x < s.cidx → (Memory.write s.cidx b s.rxbuf).read x = s.rxbuf.read x :=
    fun x hx => Memory.read_write_other (by omega) b s.rxbuf
  have hhere : ∀ x, s.cidx = x → (Memory.write s.cidx b s.rxbuf).read x = b := by
    rintro x rfl
    exact Memory.read_write_self ..
  refine ⟨fun _ => ?_, fun _ => ?_, fun hsh h8 => ?_⟩
  · rcases Nat.eq_zero_or_pos s.cidx with e | e
    · exact (hhere 0 e).trans (h0 e)
    · exact (hkeep 0 e).trans (hm e)
  · rcases Nat.lt_or_ge 1 s.cidx with e | e
    · exact (hkeep 1 e).trans (hst e)
    · have e1 : s.cidx = 1 := by omega
      exact (hhere 1 e1).trans (h1 e1)
  · rcases Nat.lt_or_ge s.cidx 8 with e | e
    · exact h7 hsh (by simp only [Config.hdrLen_eq] at h8; omega)
    · refine Eq.trans ?_ (hlen hsh e)
      change Codec.rd16 ((Memory.write s.cidx b s.rxbuf).read 6) ((Memory.write s.cidx b s.rxbuf).read 7) = _
      rw [hkeep 6 (by omega), hkeep 7 (by omega)]

/-- A byte that holds the await keeps the collector's part of the invariant. -/
theorem AwaitOk.collector_of_hold {s v : State} (h : AwaitOk s) (hc : s.cmode ≠ .idle) {b : Byte}
    (e : accept b s = .hold v) : CollectorOk v := by
  rcases h.accept_ends_or_counts hc b with (⟨u, hu, -⟩ | ⟨c, u, hu, -⟩) | ⟨m, n, hm, hok⟩
  · cases hu.symm.trans e
  · cases hu.symm.trans e
  · cases hm.symm.trans e
    exact hok.collector

/-- A byte of a frame that does not end it (R147). -/
theorem Inv.counts_frame_byte {s : State} {b : Byte} {n : Nat} (h : Inv s) (hm : s.cmode = .frame)
    (e : accept b s = .hold { s with
      rxbuf := Memory.write s.cidx b s.rxbuf, cidx := s.cidx + 1, cneed := n })
    (hrx : State.rxHeaderOk { s with rxbuf := Memory.write s.cidx b s.rxbuf } s.cshape (s.cidx + 1)) :
    Inv { s with rxbuf := Memory.write s.cidx b s.rxbuf, cidx := s.cidx + 1, cneed := n } := by
  have hc : s.cmode ≠ .idle := by simp [hm]
  obtain ⟨sh, hawait, -⟩ := h.collector.await hc
  have hnocommit : ∀ {st : SeqStep}, awaitMode st = none → s.step ≠ st := fun hn e => by
    rw [e, hn] at hawait
    cases hawait
  exact { h with
    buffers := ⟨h.buffers.1, Memory.wf_write h.buffers.2 (h.awaitOk.cidx_lt hc)⟩
    collector := h.awaitOk.collector_of_hold hc e
    response := ⟨fun _ => hrx, fun e => absurd e (hnocommit rfl),
      fun e => e.elim (absurd · (hnocommit rfl)) (absurd · (hnocommit rfl))⟩ }

/-- The last byte of a frame that passes its trailer check leaves a whole response (R147, R169). -/
theorem rxFrameOk_of_last {s : State} {sh : Shape} {b : Byte}
    (h : State.rxHeaderOk { s with rxbuf := Memory.write s.cidx b s.rxbuf } sh (s.cidx + 1))
    (hsum : Codec.sum8 ((Memory.write s.cidx b s.rxbuf).readBytes 0 s.cidx) = b) :
    State.rxFrameOk { s with rxbuf := Memory.write s.cidx b s.rxbuf } sh (s.cidx + 1) :=
  ⟨h, hsum.trans (Memory.read_write_self ..).symm⟩

/-- The causes of a bad frame, by the shape awaited (R244). -/
theorem frame_raises {st : SeqStep} {sh : Shape} (h : awaitMode st = some (.frame, sh)) {c : Cause}
    (hc : c ∈ [Cause.badMarker, .badStatus, .badLength, .lenMismatch, .badChecksum])
    (hack : sh = .ack9 → c ≠ .badLength ∧ c ≠ .lenMismatch) : c ∈ raises st := by
  rcases awaitMode_cases h with ⟨e, -⟩ | ⟨e, -⟩ | ⟨e, -⟩ | ⟨-, -, rfl⟩ | ⟨-, hsh, rfl | rfl⟩
  · cases e
  · cases e
  · cases e
  · exact List.mem_cons_of_mem _ (List.mem_cons_of_mem _ hc)
  all_goals
    obtain ⟨h5, h6⟩ := hack hsh
    revert hc
    cases c <;> simp_all [raises]

theorem Inv.acceptFrame_proper {s : State} (h : Inv s) (hm : s.cmode = .frame) (b : Byte) :
    (accept b s).Proper s.step fun u => Inv (u.finishAwait s.step) := by
  have hc : s.cmode ≠ .idle := by simp [hm]
  have hok := h.awaitOk
  obtain ⟨sh, hawait, hsh⟩ := h.collector.await hc
  rw [hm] at hawait
  obtain ⟨hw, hne, -⟩ := await_raises hawait
  have hwf : (Memory.write s.cidx b s.rxbuf).wf = true := Memory.wf_write h.buffers.2 (hok.cidx_lt hc)
  have hframe : accept b s = acceptFrame b s := accept_frame hm b
  have hhead := h.response.1 hm
  obtain ⟨u, rfl, ⟨c, hcm, e, hack⟩ | ⟨h0, h1, ⟨hrd, h7, hlen, -, e⟩ | ⟨h7, hn, e⟩ | ⟨h7, hn, hsum, e⟩⟩⟩ :=
    acceptFrame_cases b s (hok.cidx_lt hc) (hok.fits hc)
  · rw [hframe, e]
    exact (h.atStep rfl hw).failAwait_proper (frame_raises hawait hcm fun hx => hack ((hsh hm).trans hx)) hne hwf
  · have hrx := hhead.store h0 h1 fun _ _ => hlen
    rw [hframe, e]
    exact h.counts_frame_byte hm (hframe.trans e) hrx
  · have hrx := hhead.store h0 h1 fun hs hx => absurd ⟨hs, hx⟩ h7
    rw [hframe, e]
    exact h.counts_frame_byte (n := s.cneed) hm (hframe.trans e) hrx
  · have hrx := rxFrameOk_of_last (hhead.store h0 h1 fun hs hx => absurd ⟨hs, hx⟩ h7) hsum
    rcases (by cases s.cshape <;> simp : s.cshape = .read ∨ s.cshape = .ack9) with hshape | hshape
    · obtain ⟨hs, hneed⟩ := (collectorOk_read hm hshape).1 h.collector
      have hlast : s.cidx + 1 = 8 + s.chunkLen.toNat + 1 := by
        have : s.cidx ≠ 7 := fun hx => h7 ⟨hshape, hx⟩
        omega
      rw [hshape, hlast] at hrx
      rw [hs, hframe, e]
      have c := h.chunked hs rfl
      have c' : Chunked (.rd .commit) (State.finishAwait (.rd .await) { s with
          rxbuf := Memory.write s.cidx b s.rxbuf, cidx := s.cidx + 1, cresult := .success, cmode := .idle }) :=
        { c with buffers := ⟨c.buffers.1, hwf⟩ }
      exact c'.inv rfl rfl (collectorOk_idle rfl) trivial trivial
        ⟨fun hx => (nomatch hx), fun _ => hrx, fun hx => hx.elim (fun hx => nomatch hx) (fun hx => nomatch hx)⟩
    · obtain ⟨hs, -, hneed⟩ := (collectorOk_ack9 hm hshape).1 h.collector
      rw [hshape, hn, hneed] at hrx
      rcases hs with hs | hs <;> rw [hs, hframe, e]
      · have c := h.chunked hs rfl
        have c' : Chunked (.wr .commit) (State.finishAwait (.wr .await) { s with
            rxbuf := Memory.write s.cidx b s.rxbuf, cidx := s.cidx + 1, cresult := .success, cmode := .idle }) :=
          { c with buffers := ⟨c.buffers.1, hwf⟩ }
        exact c'.inv rfl rfl (collectorOk_idle rfl) trivial trivial
          ⟨fun hx => (nomatch hx), fun hx => (nomatch hx), fun _ => hrx⟩
      · have u := h.unchunked hs rfl rfl
        have u' : Unchunked (.er .commit) (State.finishAwait (.er .await) { s with
            rxbuf := Memory.write s.cidx b s.rxbuf, cidx := s.cidx + 1, cresult := .success, cmode := .idle }) :=
          { u with buffers := ⟨u.buffers.1, hwf⟩ }
        exact u'.inv rfl rfl rfl (collectorOk_idle rfl) trivial
          ⟨fun hx => (nomatch hx), fun hx => (nomatch hx), fun _ => hrx⟩

/-! ## A byte of the other awaits -/

theorem Inv.accept_proper {s : State} (h : Inv s) (hc : s.cmode ≠ .idle) (b : Byte) :
    (accept b s).Proper s.step fun u => Inv (u.finishAwait s.step) := by
  cases hm : s.cmode with
  | idle => exact absurd hm hc
  | frame => exact h.acceptFrame_proper hm b
  | eq =>
    obtain ⟨hs, -⟩ := (collectorOk_eq hm).1 h.collector
    have u := h.unchunked hs rfl rfl
    rw [hs, accept_eq hm, acceptEq]
    split_ifs
    · have u' : Unchunked (.hs .settle) (State.finishAwait (.hs .await)
          { s with cidx := 1, cresult := .success, cmode := .idle }) := { u with wait := fun _ => rfl }
      exact u'.inv_quiet rfl rfl rfl
    · exact u.failAwait_proper (c := .wrongByte) (by decide) (by simp) h.buffers.2
  | ack =>
    obtain ⟨hs, -⟩ := (collectorOk_ack hm).1 h.collector
    rcases hs with hs | hs <;> rw [hs, accept_ack hm, acceptAck] <;> have u := h.unchunked hs rfl rfl <;> split_ifs
    · have u' : Unchunked (.ld .preUpload) (State.finishAwait (.ld .announceAwait)
          { s with cidx := 1, cresult := .success, cmode := .idle }) := { u with wait := fun _ => rfl }
      exact u'.inv_quiet rfl rfl rfl
    · exact u.failAwait_proper (c := .nack) (by decide) (by simp) h.buffers.2
    · have u' : Unchunked (.ld .preExec) (State.finishAwait (.ld .uploadAwait)
          { s with cidx := 1, cresult := .success, cmode := .idle }) := { u with wait := fun _ => rfl }
      exact u'.inv_quiet rfl rfl rfl
    · exact u.failAwait_proper (c := .nack) (by decide) (by simp) h.buffers.2
  | count =>
    obtain ⟨hs, -⟩ := (collectorOk_count hm).1 h.collector
    have u := h.unchunked hs rfl rfl
    have hcount := accept_count hm b
    by_cases hlast : s.cidx + 1 = s.cneed
    · rw [hs, hcount, acceptCount, if_pos hlast]
      have u' : Unchunked (.ld .final) (State.finishAwait (.ld .execAwait)
          { s with cidx := s.cidx + 1, cresult := .success, cmode := .idle }) :=
        { u with wait := fun _ => rfl, session := rfl }
      exact u'.inv_quiet rfl rfl rfl
    · have e : accept b s = .hold { s with cidx := s.cidx + 1 } := hcount.trans (if_neg hlast)
      rw [e]
      exact { h with
        collector := h.awaitOk.collector_of_hold hc e
        response := ⟨fun hf => (nomatch hm.symm.trans hf), h.response.2⟩ }

theorem Inv.collect_proper {s : State} (h : Inv s) (hc : s.cmode ≠ .idle) :
    (collect s).Proper s.step fun u => Inv (u.finishAwait s.step) := by
  obtain ⟨sh, hawait, -⟩ := h.collector.await hc
  obtain ⟨hw, hne, hfail, htime⟩ := await_raises hawait
  have a := h.atStep rfl hw
  rcases collect_cases s with e | ⟨-, e⟩ | ⟨-, e⟩ | ⟨b, q, -, e⟩ | e <;> rw [e]
  · exact a.failAwait_proper hfail hne h.buffers.2
  · exact a.failAwait_proper htime hne h.buffers.2
  · exact h
  · have h' : Inv { s with hist := s.hist ++ [.poll (.byte b)], rxq := q } := h.of_unread rfl
    exact h'.accept_proper hc b
  · exact .inr rfl

/-! ## The engine -/

theorem Inv.stepAct_proper {s : State} (h : Inv s) (hi : s.step ≠ .idle) (hc : s.cmode = .idle)
    (hn : awaitMode s.step = none) :
    (stepAct s.step s).Proper s.step fun u => Inv (u.advance s.step) := by
  cases hs : s.step with
  | idle => exact absurd hs hi
  | range => exact h.range_proper hs hc
  | openPort => exact h.openPort_proper hs hc
  | hs x => exact h.hs_proper hs hc (hs ▸ hn)
  | ld x => exact h.ld_proper hs hc (hs ▸ hn)
  | opDispatch => exact h.dispatch_proper hs hc
  | rd x => exact h.rd_proper hs hc (hs ▸ hn)
  | wr x => exact h.wr_proper hs hc (hs ▸ hn)
  | er x => exact h.er_proper hs hc (hs ▸ hn)
  | td x => exact h.td_proper hs

theorem Inv.engineStep_safe {s : State} (h : Inv s) : Safe (engineStep s) := by
  rcases engineStep_shape s with ⟨-, e⟩ | ⟨-, ha, e⟩ | ⟨hi, hc, hn, e⟩ | ⟨-, hc, e⟩ <;> rw [e]
  · exact h
  · exact h.enters (awaitEntry_entered ha)
  · exact (h.stepAct_proper hi hc hn).settle
  · exact (h.collect_proper hc).settle

/-- The cause of a failure is one that R244's table has for the step. -/
theorem Inv.engineAct_raises {s u : State} {c : Cause} (h : Inv s) (hi : s.step ≠ .idle)
    (e : engineAct s = .fail c u) (ha : s.cmode = .idle → awaitMode s.step = none) : c ∈ raises s.step := by
  unfold engineAct at e
  split_ifs at e with hc
  · have hp := h.stepAct_proper hi hc (ha hc)
    rw [e] at hp
    exact hp.1
  · have hp := h.collect_proper hc
    rw [e] at hp
    exact hp.1

/-! ## The other agents -/

/-- START from the idle block: the assertion of RANGE (R193). -/
theorem Inv.start {s : State} (h : Inv s) (op : Op) : Inv (s.start op) := by
  cases hb : s.busy with
  | true => rwa [State.start_of_busy hb]
  | false =>
    have hi : s.step = .idle := by
      by_contra hi
      rw [h.flags.1.2 hi] at hb
      cases hb
    have hc : s.cmode = .idle := h.cmode_idle (by rw [hi]; rfl)
    have hport : s.portOpen = false := Bool.eq_false_iff.2 fun hp => by
      have := h.resources.2.1 hp
      rw [hi] at this
      exact this.elim (fun x => nomatch x) (fun x => nomatch x)
    have hwait : s.waiting = false := Bool.eq_false_iff.2 fun hw => by
      have := h.clock.2 hw
      rw [hi] at this
      cases this
    have u : Unchunked .range (s.start op) := by
      rw [State.start_of_idle hb]
      exact {
        buffers := h.buffers, busy := rfl, done := rfl, ok := rfl, failed := rfl, err := rfl
        ctl := h.resources.2.2.1, stream := by simp, t0 := h.clock.1, port := hport
        region := fun hx => (nomatch hx), stage := trivial, session := rfl
        sink := fun hop => congrArg List.length (if_pos hop)
        wait := fun hw => (nomatch hwait.symm.trans hw)
        counts := rfl, chunks := rfl, xfer := rfl }
    exact u.inv_quiet (by rw [State.start_of_idle hb]) rfl (by rw [State.start_of_idle hb]; exact hc)

theorem Inv.hostStore {s : State} (h : Inv s) (n : Nat) (v : Word) : Inv (s.hostStore n v) := by
  unfold State.hostStore
  split_ifs
  · exact h
  all_goals exact h.of_unread rfl

/-- Every move of every agent keeps the invariant, or is the answer that no run contains. -/
theorem Inv.runTurn_safe {s : State} (h : Inv s) (m : Config.Turn) : Safe (runTurn m s) := by
  cases m with
  | engine a => exact Inv.engineStep_safe (s := { s with ans := a }) (h.of_unread rfl)
  | hostWrite n v =>
    have e : runTurn (.hostWrite n v) s = hostWriteStep n v s := rfl
    rw [e, hostWriteStep_eq]
    split_ifs
    · exact h.start _
    · exact h.hostStore n v
  | hostRead n => exact h.of_unread rfl
  | peer bs =>
    obtain ⟨x, hx⟩ := peer_receives s bs
    have e : runTurn (.peer bs) s = .next (s.receive x) := hx
    rw [e]
    exact h.of_unread rfl
  | clock => exact { h with clock := ⟨Nat.le_succ_of_le h.clock.1, h.clock.2⟩ }
  | rst => exact inv_of_reset (c := s.cfg) rfl

theorem Inv.step_safe {s : State} (h : Inv s) : Safe (step s) := by
  have h' : Inv s.nextTurn.2 := by
    obtain ⟨ms, d, hu⟩ : ∃ ms d, s.nextTurn.2 = { s with inputs := ms, draws := d } := nextTurn_snd rfl
    rw [hu]
    exact h.of_unread rfl
  exact h'.runTurn_safe s.nextTurn.1

/-- Settles O44: each agent's move keeps the invariant; the engine's by the assertion of the step it leads to. -/
theorem stepKeepsInvariant : Obligations.StepKeepsInvariant := by
  intro s t h hs
  have hsafe := h.step_safe
  rw [hs] at hsafe
  exact hsafe

/-- Settles O45, with the same step lemma. -/
theorem invariantNeverFaults : Obligations.InvariantNeverFaults := by
  intro s h
  have hsafe := h.step_safe
  refine ⟨fun f hf => ?_, fun r hr => ?_⟩
  · rw [hf] at hsafe
    exact hsafe
  · rw [hr] at hsafe
    exact hsafe

/-! ## SESSION and ERR -/

/-- Settles O54: the steps that move SESSION, with the session the invariant has there. -/
theorem sessionFollowsOrder : Obligations.SessionFollowsOrder := by
  intro s u t a h hm hs hne
  rw [step_of_nextTurn hm] at hs
  obtain ⟨ms, d, rfl⟩ := nextTurn_snd hm
  have hat : ∀ {st : SeqStep}, s.step = st → st.working = true → s.session = st.sessionAt :=
    fun e hw => (h.atStep e hw).session
  rcases engineStep_sessionMoves hs with e | hmem
  · exact absurd e hne
  simp only [sessionMoves, List.mem_cons, Prod.mk.injEq, List.not_mem_nil, or_false] at hmem
  rcases hmem with ⟨hst, e⟩ | ⟨hst, e⟩ | ⟨hst, e⟩ | ⟨hst, e⟩ | ⟨hst, e⟩ | ⟨hst, e⟩ | ⟨hst, e⟩
  · rw [hat hst rfl, e]; exact .inl (by decide)
  · rw [hat hst rfl, e]; exact .inl (by decide)
  · rw [hat hst rfl, e]; exact .inl (by decide)
  · rw [hat hst rfl, e]; exact .inl (by decide)
  · rw [hat hst rfl, e]; exact .inl (by decide)
  · rw [hat hst rfl, e]; exact .inl (by decide)
  · exact .inr ⟨e, hst⟩

/-- An engine step that changes ERR takes the first failure of its session, with a cause the table has for the step
(R30, R244, R246). -/
theorem Inv.engineStep_err {s t : State} (h : Inv s) (hs : engineStep s = .next t) (hne : t.err ≠ s.err) :
    s.failed = false ∧ t.failed = true ∧
      ∃ c ∈ raises s.step, t.err = errWord c (stageOf s.op s.step) := by
  rcases engineStep_effect hs with hf | ⟨c, u, e, hf, rfl⟩
  · exact absurd hf.err hne
  have herr : (u.raise s.step c).err = if s.failed then s.err else errWord c (stageOf s.op s.step) := by
    rw [← hf.failed, ← hf.err, ← hf.op]
    rfl
  have hfailed : s.failed = false := Bool.eq_false_iff.2 fun hx => hne (herr.trans (if_pos hx))
  rw [if_neg (by simp [hfailed])] at herr
  have hi : s.step ≠ .idle := fun hi =>
    hne (congrArg State.err (Host.Outcome.next.inj (hs.symm.trans (engineStep_idle hi))))
  refine ⟨hfailed, rfl, c, h.engineAct_raises hi e fun hc => ?_, herr⟩
  by_contra hn
  have hsome := Option.ne_none_iff_isSome.1 hn
  obtain ⟨⟨m, sh⟩, hm⟩ := Option.isSome_iff_exists.1 hsome
  rw [engineAct, if_pos hc] at e
  rcases awaitMode_cases hm with
    ⟨-, hst⟩ | ⟨-, hst | hst⟩ | ⟨-, hst⟩ | ⟨-, -, hst⟩ | ⟨-, -, hst | hst⟩ <;> rw [hst] at e <;> cases e

theorem State.start_err (s : State) (op : Op) : (s.start op).err = if s.busy then s.err else 0 := by
  unfold State.start
  split_ifs <;> rfl

/-- Settles O55, by the agent that moves. -/
theorem errWrittenOnceFromTable : Obligations.ErrWrittenOnceFromTable := by
  intro s u t m h hm hs hne
  rw [step_of_nextTurn hm] at hs
  obtain ⟨ms, d, rfl⟩ := nextTurn_snd hm
  cases m with
  | engine a =>
    have h' : Inv { s with inputs := ms, draws := d, ans := a } := h.of_unread rfl
    exact .inr (.inr ⟨⟨a, rfl⟩, h'.engineStep_err hs hne⟩)
  | rst =>
    cases hs
    exact .inl ⟨rfl, rfl⟩
  | hostWrite n v =>
    have hw : hostWriteStep n v { s with inputs := ms, draws := d } = .next t := hs
    rw [hostWriteStep_eq] at hw
    split_ifs at hw with hstart <;> cases hw
    · have herr := State.start_err { s with inputs := ms, draws := d } (Codec.opOfCode s.reqOp)
      by_cases hb : s.busy = true
      · exact absurd (herr.trans (if_pos hb)) hne
      · obtain ⟨rfl, hv⟩ := hstart
        exact .inr (.inl ⟨⟨v, rfl, hv⟩, Bool.eq_false_iff.2 hb, herr.trans (if_neg hb)⟩)
    · refine absurd ?_ hne
      unfold State.hostStore
      split_ifs <;> rfl
  | peer bs =>
    obtain ⟨x, hx⟩ := peer_receives { s with inputs := ms, draws := d } bs
    cases hx.symm.trans hs
    exact absurd rfl hne
  | hostRead n | clock =>
    cases hs
    exact absurd rfl hne

end Sys2Proof.Machine
end

section
/-!
SUPPORT. No engine action reads the request registers (R35): other values in them pass through every action, so
through the engine's step: O52.
-/

namespace Sys2Proof.Machine

/-! ## Other request registers, carried through -/

/-- Values of the four request registers: REQ_OP, REQ_ADDR, REQ_LEN, PWR_DELAY (R24). -/
structure ReqRegs where
  op : BitVec 2
  addr : Word
  len : Word
  delay : Word

/-- `s` with other values in its request registers. -/
def State.withReq (r : ReqRegs) (s : State) : State :=
  { s with reqOp := r.op, reqAddr := r.addr, reqLen := r.len, pwrDelay := r.delay }

/-- An action's ending, with its state changed. -/
def Act.map (f : State → State) : Act → Act
  | .ok s => .ok (f s)
  | .hold s => .hold (f s)
  | .fail c s => .fail c (f s)
  | .refuse r => .refuse r
  | .stop g => .stop g

/-- A step's outcome, with its next state changed. -/
def mapNext (f : State → State) : Out → Out
  | .next s => .next (f s)
  | .fault g => .fault g
  | .refused r => .refused r

/-- An action that does not read the request registers. -/
def Blind (k : State → Act) : Prop := ∀ (r : ReqRegs) (s : State), k (s.withReq r) = (k s).map (State.withReq r)

theorem Blind.andThen {k l : State → Act} (hk : Blind k) (hl : Blind l) : Blind fun s => (k s).andThen l := by
  intro r s
  change (k (s.withReq r)).andThen l = ((k s).andThen l).map _
  rw [hk]
  cases k s with
  | ok u => exact hl r u
  | hold u | fail c u | refuse r | stop g => rfl

/-- An action with an operand read from the state. -/
theorem Blind.reads {α : Type} {f : State → α} {k : α → State → Act} (hf : ∀ r s, f (State.withReq r s) = f s)
    (hk : ∀ a, Blind (k a)) : Blind fun s => k (f s) s := by
  intro r s
  change k (f (s.withReq r)) (s.withReq r) = _
  rw [hf]
  exact hk (f s) r s

/-- An action after an update of other registers. -/
theorem Blind.after {f : State → State} {k : State → Act} (hf : ∀ r s, f (State.withReq r s) = (f s).withReq r)
    (hk : Blind k) : Blind fun s => k (f s) := by
  intro r s
  change k (f (s.withReq r)) = _
  rw [hf]
  exact hk r (f s)

/-- An action of two cases, on a question that the request registers have no part in. -/
theorem Blind.ite {p : State → Prop} [∀ s, Decidable (p s)] {k l : State → Act}
    (hp : ∀ r s, p (State.withReq r s) ↔ p s) (hk : Blind k) (hl : Blind l) :
    Blind fun s => if p s then k s else l s := by
  intro r s
  by_cases h : p s
  · simp only [if_pos h, if_pos ((hp r s).2 h), hk r s]
  · simp only [if_neg h, if_neg (mt (hp r s).1 h), hl r s]

/-- An update of one of two kinds, likewise. -/
theorem Blind.ok_ite {p : State → Prop} [∀ s, Decidable (p s)] {f g : State → State}
    (hp : ∀ r s, p (State.withReq r s) ↔ p s) (hf : ∀ r s, f (State.withReq r s) = (f s).withReq r)
    (hg : ∀ r s, g (State.withReq r s) = (g s).withReq r) : Blind fun s => .ok (if p s then f s else g s) := by
  intro r s
  simp only [apply_ite Act.ok]
  exact Blind.ite (k := fun s => .ok (f s)) (l := fun s => .ok (g s)) hp (fun r s => congrArg Act.ok (hf r s))
    (fun r s => congrArg Act.ok (hg r s)) r s

theorem Blind.settle {k : State → Act} (hk : Blind k) {f : State → State}
    (hf : ∀ r s, f (State.withReq r s) = (f s).withReq r) (st : SeqStep) (r : ReqRegs) (s : State) :
    (k (s.withReq r)).settle st f = mapNext (State.withReq r) ((k s).settle st f) := by
  rw [hk]
  cases k s with
  | ok u => exact congrArg _ (hf r u)
  | hold u | fail c u | refuse r | stop g => rfl

/-! ## The buffers and the calls -/

theorem storeTx_blind (a : Nat) (bs : List Byte) : Blind (storeTx a bs) :=
  .ite (p := fun _ => _) (fun _ _ => .rfl) (fun _ _ => rfl) fun _ _ => rfl

theorem stampTx_blind (n : Nat) : Blind (stampTx n) :=
  .ite (p := fun _ => _) (fun _ _ => .rfl) (fun _ _ => rfl) fun _ _ => rfl

theorem buildTx_blind (body : List Byte) : Blind (buildTx body) := (storeTx_blind 0 body).andThen (stampTx_blind _)

theorem openCall_blind : Blind openCall :=
  .ite (p := fun s => s.ans.openOk = true) (fun _ _ => .rfl) (fun _ _ => rfl) fun _ _ => rfl

theorem waitCall_blind (t : WaitArg) : Blind (waitCall t) :=
  .ite (p := fun s => s.waiting = false) (fun _ _ => .rfl) (fun _ _ => rfl)
    (.ite (p := fun s => s.waitTicks t ≤ s.now - s.t0) (fun _ _ => .rfl) (fun _ _ => rfl) fun _ _ => rfl)

theorem txWrite_blind (bs : List Byte) : Blind (txWrite bs) :=
  .ite (p := fun _ => _) (fun _ _ => .rfl) (fun _ _ => rfl) fun r s => by
    rw [show (s.withReq r).ans.tx = s.ans.tx from rfl]
    cases s.ans.tx with
    | err => rfl
    | count c =>
      dsimp only
      split_ifs <;> rfl

theorem txSend_blind (src : TxSrc) : Blind (txSend src) :=
  .ite (p := fun s => src = .frame ∧ Config.bufLen < s.txlen) (fun _ _ => .rfl) (fun _ _ => rfl)
    (.reads (f := fun s => s.txBytes src) (fun _ _ => rfl) txWrite_blind)

theorem sinkCall_blind : Blind sinkCall :=
  .ite (p := fun s => s.chunkLen = 0 ∨ Config.chunkMax < s.chunkLen.toNat) (fun _ _ => .rfl) (fun _ _ => rfl)
    (.ite (p := fun s => s.ans.sinkOk = true) (fun _ _ => .rfl) (fun _ _ => rfl) fun _ _ => rfl)

theorem buildWrite_blind (a : Word) (d : List Byte) : Blind (buildWrite a d) :=
  (Blind.andThen (.reads (f := fun s => Codec.writeHeader s.cfg a) (fun _ _ => rfl) (storeTx_blind 0))
    (storeTx_blind _ d)).andThen (stampTx_blind _)

theorem srcStep_blind : Blind srcStep := by
  have hbyte : ∀ b, Blind fun s =>
      (storeTx (Config.hdrLen + s.widx) [b] (s.log (.srcRead (.byte b)))).andThen fun s =>
        .ok { s with widx := s.widx + 1 } := fun b =>
    Blind.andThen (.reads (f := fun s => Config.hdrLen + s.widx)
      (k := fun a s => storeTx a [b] (s.log (.srcRead (.byte b)))) (fun _ _ => rfl)
      fun a => .after (f := State.log _) (fun _ _ => rfl) (storeTx_blind a [b])) fun _ _ => rfl
  intro r s
  unfold srcStep
  rw [show (s.withReq r).ans.src = s.ans.src from rfl]
  cases s.ans.src with
  | byte b => exact hbyte b r s
  | finished | err => rfl

/-! ## The collector -/

theorem failAwait_blind (c : Cause) : Blind (failAwait c) := fun _ _ => rfl

theorem checkLength_blind : Blind checkLength :=
  .ite (p := fun s => s.cshape = .read ∧ s.cidx = Config.hdrLen) (fun _ _ => .rfl)
    (.reads (f := fun s => Codec.rd16 (s.rxbuf.read 6) (s.rxbuf.read 7)) (k := fun len s =>
        if Config.chunkMax < len.toNat then failAwait .badLength s
        else if len ≠ s.chunkLen then failAwait .lenMismatch s
        else .ok { s with cneed := Config.hdrLen + len.toNat + 1 }) (fun _ _ => rfl) fun len =>
      .ite (p := fun _ => _) (fun _ _ => .rfl) (failAwait_blind _)
        (.ite (p := fun s => len ≠ s.chunkLen) (fun _ _ => .rfl) (failAwait_blind _) fun _ _ => rfl))
    fun _ _ => rfl

theorem validateRx_blind (n : Nat) : Blind (validateRx n) :=
  .ite (p := fun _ => _) (fun _ _ => .rfl) (fun _ _ => rfl)
    (.ite (p := fun _ => _) (fun _ _ => .rfl) (fun _ _ => rfl)
      (.ite (p := fun s => Codec.sum8 (s.rxbuf.readBytes 0 (n - 1)) = s.rxbuf.read (n - 1)) (fun _ _ => .rfl)
        (fun _ _ => rfl) (failAwait_blind _)))

theorem checkEnd_blind : Blind checkEnd :=
  .ite (p := fun s => s.cidx = s.cneed) (fun _ _ => .rfl)
    (Blind.andThen (.reads (f := State.cneed) (fun _ _ => rfl) validateRx_blind) fun _ _ => rfl) fun _ _ => rfl

theorem acceptFrame_blind (b : Byte) : Blind (acceptFrame b) :=
  .ite (p := fun s => Config.bufLen ≤ s.cidx) (fun _ _ => .rfl) (fun _ _ => rfl)
    (.ite (p := fun s => s.cidx = 0 ∧ b ≠ s.cfg.raw.marker) (fun _ _ => .rfl) (fun _ _ => rfl)
      (.ite (p := fun s => s.cidx = 1 ∧ b ≠ Config.statusOk) (fun _ _ => .rfl) (fun _ _ => rfl)
        (.after (f := fun s => { s with rxbuf := Memory.write s.cidx b s.rxbuf, cidx := s.cidx + 1 })
          (fun _ _ => rfl) (checkLength_blind.andThen checkEnd_blind))))

theorem acceptEq_blind (b : Byte) : Blind (acceptEq b) :=
  .ite (p := fun s => b = s.cexp) (fun _ _ => .rfl) (fun _ _ => rfl) fun _ _ => rfl

theorem acceptAck_blind (b : Byte) : Blind (acceptAck b) :=
  .ite (p := fun _ => _) (fun _ _ => .rfl) (fun _ _ => rfl) fun _ _ => rfl

theorem acceptCount_blind : Blind acceptCount :=
  .ite (p := fun s => s.cidx + 1 = s.cneed) (fun _ _ => .rfl) (fun _ _ => rfl) fun _ _ => rfl

theorem accept_blind (b : Byte) : Blind (accept b) := by
  intro r s
  unfold accept
  rw [show (s.withReq r).cmode = s.cmode from rfl]
  cases s.cmode with
  | idle => rfl
  | eq => exact acceptEq_blind b r s
  | ack => exact acceptAck_blind b r s
  | count => exact acceptCount_blind r s
  | frame => exact acceptFrame_blind b r s

theorem collect_blind : Blind collect := by
  have hquiet : Blind fun s =>
      if s.ctimeout ≤ s.now - s.t0 then failAwait s.cmode.timeoutCause (s.log (.poll .noData)) else .hold s :=
    .ite (p := fun s => s.ctimeout ≤ s.now - s.t0) (fun _ _ => .rfl) (fun _ _ => rfl) fun _ _ => rfl
  have hbyte : ∀ b q, Blind fun s => accept b { s.log (.poll (.byte b)) with rxq := q } := fun b q =>
    .after (f := fun s => { s.log (.poll (.byte b)) with rxq := q }) (fun _ _ => rfl) (accept_blind b)
  intro r s
  unfold collect pollCall
  rw [show (s.withReq r).ans.poll = s.ans.poll from rfl, show (s.withReq r).rxq = s.rxq from rfl]
  cases s.ans.poll with
  | err => rfl
  | byte =>
    cases s.rxq with
    | nil => rfl
    | cons b q => exact hbyte b q r s
  | noData =>
    cases s.rxq with
    | nil => exact hquiet r s
    | cons b q => rfl

/-! ## The engine -/

theorem rdNext_blind : Blind (stepAct (.rd .next)) :=
  .ite (p := fun s => s.remaining = 0) (fun _ _ => .rfl) (fun _ _ => rfl)
    (.after (f := fun s => { s with chunkLen := s.nextChunkLen })
      (k := fun s => buildTx (Codec.readBody s.cfg s.curAddr s.chunkLen) s) (fun _ _ => rfl)
      (.reads (f := fun s => Codec.readBody s.cfg s.curAddr s.chunkLen) (fun _ _ => rfl) buildTx_blind))

theorem erBuild_blind : Blind (stepAct (.er .build)) :=
  .ite (p := fun s => s.addr0 = 0) (fun _ _ => .rfl)
    (.reads (f := fun s => Codec.eraseAllBody s.cfg) (fun _ _ => rfl) buildTx_blind)
    (.reads (f := fun s => Codec.eraseSectorBody s.cfg s.addr0) (fun _ _ => rfl) buildTx_blind)

theorem stepAct_blind (st : SeqStep) : Blind (stepAct st) := by
  cases st with
  | idle => exact fun _ _ => rfl
  | range =>
    exact .ite (p := fun s => (s.op = .read ∨ s.op = .write) ∧ Config.capacity < s.addr0.toNat + s.len0.toNat)
      (fun _ _ => .rfl) (fun _ _ => rfl)
      (.ite (p := fun s => s.op = .erase ∧ Config.capacity ≤ s.addr0.toNat) (fun _ _ => .rfl) (fun _ _ => rfl)
        fun _ _ => rfl)
  | openPort => exact openCall_blind
  | opDispatch =>
    intro r s
    cases h : s.op <;> simp only [stepAct, State.withReq, h] <;> rfl
  | hs x =>
    cases x with
    | powerWait | settle => exact waitCall_blind _
    | train => exact txSend_blind _
    | assert | release | await | flush => exact fun _ _ => rfl
  | ld x =>
    cases x with
    | announceTx | uploadTx | execTx => exact txSend_blind _
    | preUpload | preExec => exact waitCall_blind _
    | final => exact (waitCall_blind _).andThen fun _ _ => rfl
    | announceAwait | uploadAwait | execAwait => exact fun _ _ => rfl
  | rd x =>
    cases x with
    | next => exact rdNext_blind
    | settle => exact waitCall_blind _
    | tx => exact txSend_blind _
    | await => exact fun _ _ => rfl
    | commit => exact sinkCall_blind.andThen fun _ _ => rfl
  | wr x =>
    cases x with
    | next =>
      exact .ok_ite (p := fun s => s.remaining = 0) (f := id)
        (g := fun s => { s with chunkLen := s.nextChunkLen, widx := 0 }) (fun _ _ => .rfl) (fun _ _ => rfl)
        fun _ _ => rfl
    | src => exact srcStep_blind
    | build =>
      exact .reads (f := fun s => (s.curAddr, s.imageBytes)) (k := fun p => buildWrite p.1 p.2) (fun _ _ => rfl)
        fun p => buildWrite_blind p.1 p.2
    | settle => exact waitCall_blind _
    | tx => exact txSend_blind _
    | await | commit => exact fun _ _ => rfl
  | er x =>
    cases x with
    | build => exact erBuild_blind
    | settle => exact waitCall_blind _
    | tx => exact txSend_blind _
    | await | commit => exact fun _ _ => rfl
  | td x =>
    cases x with
    | close =>
      exact .ok_ite (p := fun s => s.portOpen = true) (g := id)
        (f := fun s => { s.log (.close s.ans.closeOk) with portOpen := false, ctlAsserted := false })
        (fun _ _ => .rfl) (fun _ _ => rfl) fun _ _ => rfl
    | stream =>
      exact .ok_ite (p := fun s => s.streamOpen = true) (g := id)
        (f := fun s => { s.log .streamClose with streamOpen := false }) (fun _ _ => .rfl) (fun _ _ => rfl)
        fun _ _ => rfl
    | finish => exact fun _ _ => rfl

theorem awaitEntry_withReq (st : SeqStep) (r : ReqRegs) (s : State) :
    awaitEntry st (s.withReq r) = (awaitEntry st s).withReq r := by
  cases st with
  | hs x | ld x | rd x | wr x | er x => cases x <;> rfl
  | idle | range | openPort | opDispatch | td x => rfl

theorem successor_withReq (st : SeqStep) (r : ReqRegs) (s : State) :
    successor (s.withReq r) st = successor s st := by
  cases st with
  | hs x | ld x | rd x | wr x | er x | td x => cases x <;> rfl
  | idle | range | openPort | opDispatch => rfl

theorem advance_withReq (st : SeqStep) (r : ReqRegs) (s : State) :
    (s.withReq r).advance st = (s.advance st).withReq r := by
  rw [State.advance, successor_withReq]
  rfl

theorem finishAwait_withReq (st : SeqStep) (r : ReqRegs) (s : State) :
    (s.withReq r).finishAwait st = (s.finishAwait st).withReq r := by
  unfold State.finishAwait
  split
  · rfl
  · split_ifs
    · exact advance_withReq st r { s with session := .loaderInstalled }
    · exact advance_withReq st r s

/-- An engine step that enters an await. -/
theorem engineStep_entry {s : State} (hc : s.cmode = .idle) (ha : (awaitMode s.step).isSome = true) :
    engineStep s = .next (awaitEntry s.step s) := by
  rcases engineStep_shape s with ⟨hi, -⟩ | ⟨-, -, e⟩ | ⟨-, -, hn, -⟩ | ⟨-, hne, -⟩
  · rw [hi] at ha; cases ha
  · exact e
  · rw [hn] at ha; cases ha
  · exact absurd hc hne

/-- An engine step that runs its step's action. -/
theorem engineStep_act {s : State} (hi : s.step ≠ .idle) (hc : s.cmode = .idle) (hn : awaitMode s.step = none) :
    engineStep s = seqStep s.step (stepAct s.step s) := by
  rcases engineStep_shape s with ⟨h, -⟩ | ⟨-, ha, -⟩ | ⟨-, -, -, e⟩ | ⟨-, hne, -⟩
  · exact absurd h hi
  · rw [hn] at ha; cases ha
  · exact e
  · exact absurd hc hne

theorem engineStep_withReq (r : ReqRegs) (s : State) :
    engineStep (s.withReq r) = mapNext (State.withReq r) (engineStep s) := by
  rcases engineStep_shape s with ⟨hi, e⟩ | ⟨hc, ha, e⟩ | ⟨hi, hc, hn, e⟩ | ⟨hi, hc, e⟩ <;> rw [e]
  · exact engineStep_idle (s := s.withReq r) hi
  · exact (engineStep_entry (s := s.withReq r) hc ha).trans (congrArg _ (awaitEntry_withReq s.step r s))
  · exact (engineStep_act (s := s.withReq r) hi hc hn).trans
      ((stepAct_blind s.step).settle (advance_withReq s.step) s.step r s)
  · exact (engineStep_collect (s := s.withReq r) hi hc).trans
      (collect_blind.settle (finishAwait_withReq s.step) s.step r s)

theorem nextTurn_withReq (r : ReqRegs) (s : State) :
    (s.withReq r).nextTurn = (s.nextTurn.1, s.nextTurn.2.withReq r) := by
  unfold State.nextTurn
  rw [show (s.withReq r).inputs = s.inputs from rfl]
  cases s.inputs <;> rfl

/-- Settles O52: an engine step is blind to the request registers, and the schedule holds none of them. -/
theorem engineIgnoresRequestRegisters : Obligations.EngineIgnoresRequestRegisters := by
  intro s u a hm o x y z
  have hm' := nextTurn_withReq ⟨o, x, y, z⟩ s
  rw [hm] at hm'
  intro hidden
  rw [step_of_nextTurn hm]
  refine (step_of_nextTurn hm').trans ((engineStep_withReq ⟨o, x, y, z⟩ { u with ans := a }).trans ?_)
  change mapNext _ (engineStep _) = match engineStep _ with | .next t => _ | .fault f => _ | .refused r => _
  cases engineStep { u with ans := a } <;> rfl

end Sys2Proof.Machine
end

section
/-!
SUPPORT. A CONNECT_ONLY session that ends well, for every configuration and power-up delay: O47.
-/

namespace Sys2Proof.Machine

/-! ## Runs, composed -/

/-- Running from `s` some number of steps is being at `t`. -/
def Goes (s t : State) : Prop := ∃ k, ∀ j, Host.Core.run core (k + j) s = Host.Core.run core j t

theorem Goes.step {s t u : State} (h : step s = .next t) (ht : Goes t u) : Goes s u := by
  obtain ⟨k, hk⟩ := ht
  refine ⟨k + 1, fun j => ?_⟩
  rw [Nat.add_right_comm, run_of_next h, hk]

theorem Goes.clocks {n : Nat} {s u : State} {ms : List Config.Turn} (h : s.inputs = List.replicate n .clock ++ ms)
    (ht : Goes { s with now := s.now + n, inputs := ms } u) : Goes s u := by
  obtain ⟨k, hk⟩ := ht
  refine ⟨n + k, fun j => ?_⟩
  rw [Nat.add_assoc, run_clocks n s ms h, hk]

theorem Goes.refl (s : State) : Goes s s := ⟨0, fun j => by rw [Nat.zero_add]⟩

theorem Goes.trans {s t u : State} (h : Goes s t) (ht : Goes t u) : Goes s u := by
  obtain ⟨k, hk⟩ := h
  obtain ⟨l, hl⟩ := ht
  exact ⟨k + l, fun j => by rw [Nat.add_assoc, hk, hl]⟩

/-! ## The schedule -/

/-- Answers with which every call of a CONNECT_ONLY session goes well (R131 to R137). -/
def willing : Config.Answers :=
  { openOk := true, tx := .count Config.trainingLen, wireOnErr := 0, poll := .byte, closeOk := true
    src := .byte 0, sinkOk := true, sinkOnErr := [] }

/-- The engine moves, and every call goes well. -/
def go : Config.Turn := .engine willing

/-- `n` ticks of the Clock. -/
def ticks (n : Nat) : List Config.Turn := List.replicate n .clock

/-- The host writes PWR_DELAY and START; the engine goes through RANGE and OPEN to the power-up wait (R193 to
R196). -/
def openingMoves (pd : Word) : List Config.Turn := [.hostWrite 3 pd, .hostWrite 4 1, go, go, go, go]

/-- From the end of the power-up wait to the release of the line (R196). -/
def trainingMoves : List Config.Turn := [go, go, go]

/-- The await of the handshake answer, which the Peer gives, and the entry of SETTLE (R196). -/
def answerMoves : List Config.Turn := [go, .peer [Config.hsAckByte], go, go]

/-- From the end of SETTLE: FLUSH and teardown (R196, R206). -/
def closingMoves : List Config.Turn := [go, go, go, go, go]

/-- A CONNECT_ONLY session with power-up delay `pd`. -/
def connectMoves (c : Config.Params) (pd : Word) : List Config.Turn :=
  openingMoves pd ++ (ticks pd.toNat ++ (trainingMoves ++ (answerMoves ++ (ticks c.raw.tHsSettle ++ closingMoves))))

/-! ## The end of a wait -/

theorem waitCall_elapsed {t : WaitArg} {s : State} (hw : s.waiting = true) (h : s.waitTicks t ≤ s.now - s.t0) :
    waitCall t s = .ok { s with waiting := false } := by
  rw [waitCall, if_neg (by simp [hw]), if_pos h]

/-- An engine step at a WAIT step whose time has passed (R141). -/
theorem step_waited {s : State} {t : WaitArg} {ms : List Config.Turn} (hin : s.inputs = go :: ms)
    (hi : s.step ≠ .idle) (hc : s.cmode = .idle) (hn : awaitMode s.step = none)
    (hst : ∀ s', stepAct s.step s' = waitCall t s') (hw : s.waiting = true) (h : s.waitTicks t ≤ s.now - s.t0) :
    step s = .next (State.advance s.step { s with waiting := false, ans := willing, inputs := ms }) := by
  have hturn : s.nextTurn = (go, { s with inputs := ms }) := by
    rw [State.nextTurn, hin]
  have hact : waitCall t { s with ans := willing, inputs := ms } =
      .ok { s with waiting := false, ans := willing, inputs := ms } := waitCall_elapsed hw h
  rw [step_of_nextTurn hturn]
  refine (engineStep_act (s := { s with ans := willing, inputs := ms }) hi hc hn).trans ?_
  exact congrArg (seqStep s.step) ((hst _).trans hact)

/-! ## The stations of the session -/

/-- The session once the port is open and the control line asserted, with `ms` to come. -/
def poweringUp (c : Config.Params) (pd : Word) (ms : List Config.Turn) : State :=
  { State.resetWith c with
    pwrDelay := pd, pdelay := pd, busy := true, portOpen := true, ctlAsserted := true
    step := .hs .powerWait, waiting := true, hist := [.openPort true, .ctlAssert], ans := willing, inputs := ms }

/-- The session once the training pattern is sent and the line released, at `n` ticks. -/
def released (c : Config.Params) (pd : Word) (n : Nat) (ms : List Config.Turn) : State :=
  { poweringUp c pd ms with
    now := n, ctlAsserted := false, step := .hs .await, waiting := false
    txcalls := 1, txwire := Codec.assetBytes c .training
    hist := [.openPort true, .ctlAssert, .txWrite (Codec.assetBytes c .training) (.count Config.trainingLen),
      .ctlRelease] }

/-- The session settling after the Peer's answer, which came at `n` ticks. -/
def settling (c : Config.Params) (pd : Word) (n : Nat) (ms : List Config.Turn) : State :=
  { released c pd n ms with
    t0 := n, step := .hs .settle, waiting := true
    cexp := Config.hsAckByte, ctimeout := c.raw.tHsAck, cidx := 1, cneed := CMode.need .eq .read
    cresult := .success
    hist := (released c pd n ms).hist ++ [.poll (.byte Config.hsAckByte)] }

/-- The session at its end, at `m` ticks. -/
def endedWell (c : Config.Params) (pd : Word) (n m : Nat) : State :=
  { settling c pd n [] with
    now := m, waiting := false, busy := false, done := true, ok := true, session := .closed, portOpen := false
    step := .idle, hist := (settling c pd n []).hist ++ [.flush] ++ [.close true] }

/-- The host writes PWR_DELAY and CTRL, and the engine checks the region, opens the port, asserts the line and
begins to wait (R193 to R196). -/
theorem goes_poweringUp (c : Config.Params) (pd : Word) (ms : List Config.Turn) :
    Goes { State.resetWith c with inputs := openingMoves pd ++ ms } (poweringUp c pd ms) := by
  refine .step (t := { State.resetWith c with
    pwrDelay := pd, inputs := .hostWrite 4 1 :: go :: go :: go :: go :: ms }) rfl ?_
  refine .step (t := { State.resetWith c with
    pwrDelay := pd, pdelay := pd, busy := true, step := .range, inputs := go :: go :: go :: go :: ms }) rfl ?_
  refine .step (t := { State.resetWith c with
    pwrDelay := pd, pdelay := pd, busy := true, step := .openPort, ans := willing, inputs := go :: go :: go :: ms })
    rfl ?_
  refine .step (t := { poweringUp c pd (go :: go :: ms) with
    waiting := false, ctlAsserted := false, step := .hs .assert, hist := [.openPort true] }) rfl ?_
  exact .step (t := { poweringUp c pd (go :: ms) with waiting := false }) rfl (.step rfl (.refl _))

/-- The wait ends, the training pattern is sent whole, and the line is released (R196). -/
theorem goes_released {c : Config.Params} {pd : Word} {n : Nat} (hn : pd.toNat ≤ n) (ms : List Config.Turn) :
    Goes { poweringUp c pd (trainingMoves ++ ms) with now := n } (released c pd n ms) := by
  refine .step (t := { poweringUp c pd (go :: go :: ms) with now := n, waiting := false, step := .hs .train }) ?_ ?_
  · exact step_waited (t := .pdelay) rfl (fun h => nomatch h) rfl rfl (fun _ => rfl) rfl hn
  refine .step (t := { released c pd n (go :: ms) with
    ctlAsserted := true, step := .hs .release
    hist := [.openPort true, .ctlAssert, .txWrite (Codec.assetBytes c .training) (.count Config.trainingLen)] })
    rfl ?_
  exact .step rfl (.refl _)

/-- The await takes the Peer's answer, and SETTLE begins (R144, R196). -/
theorem goes_settling (c : Config.Params) (pd : Word) (n : Nat) (ms : List Config.Turn) :
    Goes (released c pd n (answerMoves ++ ms)) (settling c pd n ms) := by
  refine .step (t := { released c pd n (.peer [Config.hsAckByte] :: go :: go :: ms) with
    cmode := .eq, cexp := Config.hsAckByte, ctimeout := c.raw.tHsAck, t0 := n
    cneed := CMode.need .eq .read }) rfl ?_
  refine .step (t := { released c pd n (go :: go :: ms) with
    cmode := .eq, cexp := Config.hsAckByte, ctimeout := c.raw.tHsAck, t0 := n
    cneed := CMode.need .eq .read, rxq := [Config.hsAckByte] }) rfl ?_
  exact .step (t := { settling c pd n (go :: ms) with waiting := false }) rfl (.step rfl (.refl _))

/-- SETTLE ends, FLUSH makes the session Connected, and the teardown ends it (R197, R206). -/
theorem goes_endedWell {c : Config.Params} {pd : Word} {n m : Nat} (hm : c.raw.tHsSettle ≤ m - n) :
    Goes { settling c pd n closingMoves with now := m } (endedWell c pd n m) := by
  refine .step (t := { settling c pd n [go, go, go, go] with now := m, waiting := false, step := .hs .flush }) ?_ ?_
  · exact step_waited (t := .hsSettle) rfl (fun h => nomatch h) rfl rfl (fun _ => rfl) rfl hm
  refine .step (t := { endedWell c pd n m with
    busy := true, done := false, ok := false, session := .connected, portOpen := true, step := .td .close
    hist := (settling c pd n []).hist ++ [.flush], inputs := [go, go, go] }) rfl ?_
  refine .step (t := { endedWell c pd n m with
    busy := true, done := false, ok := false, session := .connected, step := .td .stream, inputs := [go, go] }) rfl ?_
  refine .step (t := { endedWell c pd n m with
    busy := true, done := false, ok := false, session := .connected, step := .td .finish, inputs := [go] }) rfl ?_
  exact .step rfl (.refl _)

/-- Settles O47: the host starts the session, the clock ticks through both waits, the Peer answers once. -/
theorem connectOnlyCanSucceed : Obligations.ConnectOnlyCanSucceed := by
  intro c pd
  have hrun : Goes { State.resetWith c with inputs := connectMoves c pd } (endedWell c pd (0 + pd.toNat) _) :=
    (goes_poweringUp c pd _).trans <| .clocks rfl <| (goes_released (Nat.le_add_left ..) _).trans <|
      (goes_settling c pd _ _).trans <| .clocks rfl <| goes_endedWell (Nat.add_sub_cancel_left ..).ge
  obtain ⟨k, hk⟩ := hrun
  exact ⟨connectMoves c pd, k, _, hk 0, rfl, rfl,
    BitVec.eq_of_toNat_eq (State.statusWord_toNat _), rfl, rfl, rfl, rfl, rfl⟩

end Sys2Proof.Machine
end

section
/-!
SUPPORT. What moves over the wire and into memory for a chunk: its place in the split of the request (R160), the
command sent for it (R162 to R166), and the response behind which it is committed (R72, R202): O42, O58, O59.
-/

namespace Sys2Proof.Machine

/-! ## What an action leaves, and what its step ends in -/

theorem Act.Leaves.mono {P Q : State → Prop} {a : Act} (ha : a.Leaves P) (h : ∀ u, P u → Q u) :
    a.Leaves Q := by
  cases a with
  | ok u => exact h u ha
  | hold u => exact h u ha
  | fail c u => exact h u ha
  | refuse r => trivial
  | stop f => trivial

/-- What every state that an action can leave satisfies, the state satisfies that it settles in, when going on and
taking a failure keep it. -/
theorem Act.Leaves.settle {P : State → Prop} {st : SeqStep} {f : State → State} {a : Act} {t : State}
    (ha : a.Leaves P) (h : a.settle st f = .next t) (hok : ∀ u, P u → P (f u))
    (hfail : ∀ c u, P u → P (u.raise st c)) : P t := by
  rcases Act.settle_next h with ⟨u, rfl, rfl⟩ | ⟨u, rfl, rfl⟩ | ⟨c, u, rfl, rfl⟩
  · exact hok u ha
  · exact ha
  · exact hfail c u ha

/-- The engine at a step that is no await runs the action of the step: the collector is idle there (R43, R192). -/
theorem Inv.engineStep_runs {s : State} {st : SeqStep} (h : Inv s) (hs : s.step = st) (hi : st ≠ .idle)
    (hn : awaitMode st = none) : engineStep s = seqStep st (stepAct st s) := by
  subst hs
  exact engineStep_act hi (h.cmode_idle hn) hn

/-! ## The chunk in flight -/

/-- Entry k of a split (R160). -/
theorem chunkSplit_getElem? (a : Nat) {n k : Nat} (h : k < chunkCount n) :
    (chunkSplit a n)[k]? = some (a + 512 * k, min 512 (n - 512 * k)) := by
  simp [chunkSplit, h]

/-- There are as many chunks as start inside the transfer (R160). -/
theorem lt_chunkCount {n k : Nat} (h : 512 * k < n) : k < chunkCount n := by
  simp only [chunkCount, Config.chunkMax_eq]
  omega

theorem transferring_of_inChunk {st : SeqStep} (h : st.inChunk = true) : st.transferring = true := by
  cases st with
  | rd x | wr x => rfl
  | _ => cases h

/-- Settles O42: the transfer laws give the entry, the region check the bound, the numbers of the commit the rest. -/
theorem currentChunkIsSplitEntry : Obligations.CurrentChunkIsSplitEntry := by
  intro s h hin
  obtain ⟨hrem, hlen, hregion, htotal, haddr, hfull⟩ := h.chunk_facts hin
  have ht := transferring_of_inChunk hin
  obtain ⟨hpos, -, -, hr, ha, -⟩ := (h.chunked rfl ht).commit_numbers ht hin
  rw [State.commitChunk_remaining] at hr
  rw [State.commitChunk_curAddr] at ha
  refine ⟨?entry, by omega, ha, by omega⟩
  have hlast : s.len0.toNat - 512 * s.chunks.toNat = s.remaining.toNat := by omega
  rw [chunkSplit_getElem? _ (lt_chunkCount (by omega)), hlast, haddr, hfull, hlen, Nat.min_comm]

/-! ## The command sent -/

/-- The frame in `txbuf` at RD_TX is the read command of the current chunk (R91, R162). -/
theorem Inv.decode_txFrame_read {s : State} (h : Inv s) (hs : s.step = .rd .tx) :
    decode s.cfg (.command s.txFrame) = .ok (.cmdRead s.curAddr s.chunkLen) := by
  obtain ⟨hrem, hlen, -⟩ := h.chunk_facts (by rw [hs]; rfl)
  rw [(frameOk_rd (.inr hs)).1 h.frame]
  exact decodeEncode s.cfg (.cmdRead s.curAddr s.chunkLen) (by simp [Instr.wf]; omega)

/-- The frame at WR_TX is the write command of the current chunk, around its image bytes (R92, R163). -/
theorem Inv.decode_txFrame_write {s : State} (h : Inv s) (hs : s.step = .wr .tx) :
    decode s.cfg (.command s.txFrame) = .ok (.cmdWrite s.curAddr s.imageBytes) := by
  obtain ⟨hrem, hlen, -⟩ := h.chunk_facts (by rw [hs]; rfl)
  have hd : s.imageBytes.length = s.chunkLen.toNat := Memory.length_readBytes ..
  rw [(frameOk_wr (.inr hs)).1 h.frame]
  exact decodeEncode s.cfg (.cmdWrite s.curAddr s.imageBytes) (by simp [Instr.wf, hd]; omega)

/-- The frame at ER_TX is the erase command that the target selects; the region check keeps it a sector of the flash
(R93, R94, R166). -/
theorem Inv.decode_txFrame_erase {s : State} (h : Inv s) (hs : s.step = .er .tx) :
    decode s.cfg (.command s.txFrame) =
      .ok (if s.addr0 = 0 then .cmdEraseAll else .cmdEraseSector s.addr0) := by
  have a := h.atStep hs rfl
  have hlt : s.addr0.toNat < 16384 := (a.region rfl).2 a.stage
  rw [(frameOk_er (.inr hs)).1 h.frame, State.eraseBody]
  split_ifs with h0
  · exact decodeEncode s.cfg .cmdEraseAll rfl
  · have hpos : 0 < s.addr0.toNat := by bv_omega
    exact decodeEncode s.cfg (.cmdEraseSector s.addr0) (by simp [Instr.wf]; omega)

/-- A transmission is counted and recorded with the bytes it was given, whatever the answer (R17, R132). -/
theorem txSend_transmits (src : TxSrc) (s : State) :
    (txSend src s).Leaves fun u => ∃ sent, u = s.transmitted (s.txBytes src) sent := by
  rcases txSend_cases src s with ⟨-, -, e⟩ | ⟨-, e⟩ <;> rw [e]
  · trivial
  · rcases txWrite_cases (s.txBytes src) s with
      ⟨-, e⟩ | ⟨-, ⟨c, -, -, e⟩ | ⟨-, e⟩ | ⟨c, -, -, e⟩ | ⟨-, e⟩⟩ <;> rw [e]
    · trivial
    · trivial
    all_goals exact ⟨_, rfl⟩

/-- A flash command is recorded with the frame in `txbuf` (R17, R70). -/
theorem Inv.frameTx_records {s t : State} (h : Inv s)
    (hs : s.step = .rd .tx ∨ s.step = .wr .tx ∨ s.step = .er .tx) (he : engineStep s = .next t) :
    t.hist = s.hist ++ [.txWrite s.txFrame s.ans.tx] := by
  have hrun : engineStep s = (txSend .frame s).settle s.step (State.advance s.step) := by
    rcases hs with e | e | e <;> rw [h.engineStep_runs e (by simp) rfl, e] <;> rfl
  have hrec : (txSend .frame s).Leaves fun u => u.hist = s.hist ++ [.txWrite s.txFrame s.ans.tx] :=
    (txSend_transmits .frame s).mono fun u ⟨sent, e⟩ => by rw [e]; rfl
  rw [hrun] at he
  exact hrec.settle he (fun _ hu => hu) fun _ _ hu => hu

/-- Settles O58: the frame that stands in `txbuf` is recorded, and it decodes as the step's command. -/
theorem flashCommandsAreLegal : Obligations.FlashCommandsAreLegal := by
  intro s u t a h hm hs hst
  rw [step_of_nextTurn hm] at hs
  obtain ⟨ms, d, rfl⟩ := nextTurn_snd hm
  have h' : Inv { s with inputs := ms, draws := d, ans := a } := h.of_unread rfl
  have hhist := h'.frameTx_records hst hs
  rcases hst with e | e | e
  · exact ⟨_, _, hhist, h.decode_txFrame_read e, fun _ => rfl, by simp [e], by simp [e]⟩
  · exact ⟨_, _, hhist, h.decode_txFrame_write e, by simp [e], fun _ => rfl, by simp [e]⟩
  · exact ⟨_, _, hhist, h.decode_txFrame_erase e, by simp [e], by simp [e], fun _ => rfl⟩

/-! ## What only a commit writes -/

/-- The sink and CHUNKS as they were (R72, R73). -/
def KeepsResults (s u : State) : Prop := u.sink = s.sink ∧ u.chunks = s.chunks

theorem KeepsResults.refl (s : State) : KeepsResults s s := ⟨rfl, rfl⟩

theorem Built.keepsResults {body : List Byte} {s t : State} (h : Built body s t) : KeepsResults s t := by
  rw [h.eq]
  exact .refl s

theorem txSend_keepsResults (src : TxSrc) (s : State) : (txSend src s).Leaves (KeepsResults s) :=
  (txSend_transmits src s).mono fun u ⟨sent, e⟩ => by rw [e]; exact .refl s

theorem openCall_keepsResults (s : State) : (openCall s).Leaves (KeepsResults s) := by
  rcases openCall_cases s with ⟨-, e⟩ | ⟨-, e⟩ <;> rw [e] <;> exact .refl s

theorem waitCall_keepsResults (t : WaitArg) (s : State) : (waitCall t s).Leaves (KeepsResults s) := by
  rcases waitCall_cases t s with ⟨-, e⟩ | ⟨-, -, e⟩ | ⟨-, -, e⟩ <;> rw [e] <;> exact .refl s

theorem srcStep_keepsResults (s : State) : (srcStep s).Leaves (KeepsResults s) := by
  rcases srcStep_cases s with ⟨b, -, -, e⟩ | ⟨b, -, -, e⟩ | ⟨-, e⟩ | ⟨-, e⟩ <;> rw [e]
  · exact .refl s
  · trivial
  all_goals exact .refl s

theorem closeCall_keepsResults (s : State) : KeepsResults s (closeCall s) := by
  unfold closeCall
  split <;> exact .refl s

theorem streamCloseCall_keepsResults (s : State) : KeepsResults s (streamCloseCall s) := by
  unfold streamCloseCall
  split <;> exact .refl s

/-- A byte that is accepted goes to `rxbuf` or nowhere (R144 to R147). -/
theorem AwaitOk.accept_keepsResults {s : State} (h : AwaitOk s) (hc : s.cmode ≠ .idle) (b : Byte) :
    (accept b s).Leaves (KeepsResults s) := by
  cases hm : s.cmode with
  | idle => exact absurd hm hc
  | eq =>
    rw [accept_eq hm, acceptEq]
    split_ifs <;> exact .refl s
  | ack =>
    rw [accept_ack hm, acceptAck]
    split_ifs <;> exact .refl s
  | count =>
    rw [accept_count hm, acceptCount]
    split_ifs <;> exact .refl s
  | frame =>
    rw [accept_frame hm]
    obtain ⟨u, rfl, ⟨c, -, e, -⟩ | ⟨-, -, ⟨-, -, -, -, e⟩ | ⟨-, -, e⟩ | ⟨-, -, -, e⟩⟩⟩ :=
      acceptFrame_cases b s (h.cidx_lt hc) (h.fits hc) <;> rw [e] <;> exact .refl s

theorem Inv.collect_keepsResults {s : State} (h : Inv s) (hc : s.cmode ≠ .idle) :
    (collect s).Leaves (KeepsResults s) := by
  rcases collect_cases s with e | ⟨-, e⟩ | ⟨-, e⟩ | ⟨b, q, -, e⟩ | e <;> rw [e]
  · exact .refl s
  · exact .refl s
  · exact .refl s
  · have hok : AwaitOk { s with hist := s.hist ++ [.poll (.byte b)], rxq := q } := { h.awaitOk with }
    exact hok.accept_keepsResults hc b
  · trivial

/-- The action of every step but the three commits (R202, R205). -/
theorem Inv.stepAct_keepsResults {s : State} {st : SeqStep} (h : Inv s) (hs : s.step = st)
    (hc : st.commits = false) : (stepAct st s).Leaves (KeepsResults s) := by
  cases st with
  | idle => exact .refl s
  | range => rcases stepAct_range_cases s with e | e | ⟨-, -, e⟩ <;> rw [e] <;> exact .refl s
  | openPort => exact openCall_keepsResults s
  | hs x =>
    cases x with
    | powerWait | settle => exact waitCall_keepsResults _ s
    | train => exact txSend_keepsResults _ s
    | assert | release | await | flush => exact .refl s
  | ld x =>
    cases x with
    | announceTx | uploadTx | execTx => exact txSend_keepsResults _ s
    | preUpload | preExec => exact waitCall_keepsResults _ s
    | announceAwait | uploadAwait | execAwait => exact .refl s
    | final => exact (waitCall_keepsResults _ s).andThen fun _ hu => hu
  | opDispatch =>
    rcases stepAct_dispatch_cases s with ⟨-, e⟩ | ⟨-, e⟩ | ⟨-, e⟩ | ⟨-, e⟩ <;> rw [e]
    · trivial
    all_goals exact .refl s
  | rd x =>
    cases x with
    | next =>
      rcases stepAct_rdNext_cases s with ⟨-, e⟩ | ⟨-, e⟩ <;> rw [e]
      · exact .refl s
      · obtain ⟨u, hu, hb⟩ := buildTx_built (body := Codec.readBody s.cfg s.curAddr s.nextChunkLen)
          { s with chunkLen := s.nextChunkLen } (by simp)
        rw [hu]
        exact hb.keepsResults
    | settle => exact waitCall_keepsResults _ s
    | tx => exact txSend_keepsResults _ s
    | await => exact .refl s
    | commit => cases hc
  | wr x =>
    cases x with
    | next => rcases stepAct_wrNext_cases s with ⟨-, e⟩ | ⟨-, e⟩ <;> rw [e] <;> exact .refl s
    | src => exact srcStep_keepsResults s
    | build =>
      obtain ⟨-, hlen, -⟩ := h.chunk_facts (by rw [hs]; rfl)
      obtain ⟨u, hu, hb, -⟩ := buildWrite_image (s := s) (by omega)
      rw [stepAct, hu]
      exact hb.keepsResults
    | settle => exact waitCall_keepsResults _ s
    | tx => exact txSend_keepsResults _ s
    | await => exact .refl s
    | commit => cases hc
  | er x =>
    cases x with
    | build =>
      obtain ⟨u, hu, hb⟩ := stepAct_erBuild_built s
      rw [hu]
      exact hb.keepsResults
    | settle => exact waitCall_keepsResults _ s
    | tx => exact txSend_keepsResults _ s
    | await => exact .refl s
    | commit => cases hc
  | td x =>
    cases x with
    | close => exact closeCall_keepsResults s
    | stream => exact streamCloseCall_keepsResults s
    | finish => exact .refl s

theorem KeepsResults.finishAwait {s u : State} (h : KeepsResults s u) (st : SeqStep) :
    KeepsResults s (u.finishAwait st) := by
  unfold State.finishAwait
  split
  · exact h
  · split_ifs <;> exact h

/-- Only a commit step writes the sink or CHUNKS (R72, R73, R202). -/
theorem Inv.engineStep_keepsResults {s t : State} (h : Inv s) (hc : s.step.commits = false)
    (he : engineStep s = .next t) : KeepsResults s t := by
  rcases engineStep_shape s with ⟨-, e⟩ | ⟨-, ha, e⟩ | ⟨-, -, -, e⟩ | ⟨-, hm, e⟩ <;> rw [e] at he
  · cases he
    exact .refl s
  · cases he
    obtain ⟨m, sh, budget, -, -, -, e⟩ := awaitEntry_entered ha
    rw [e]
    exact .refl s
  · exact (h.stepAct_keepsResults rfl hc).settle he (fun _ hu => hu) fun _ _ hu => hu
  · exact (h.collect_keepsResults hm).settle he (fun _ hu => hu.finishAwait _) fun _ _ hu => hu

/-! ## Commits -/

/-- A 16-bit field as a number (R14). -/
theorem rd16_toNat (x y : Byte) : (Codec.rd16 x y).toNat = x.toNat + 256 * y.toNat := by
  rw [Codec.rd16, BitVec.toNat_append, ← Nat.shiftLeft_add_eq_or_of_lt x.isLt, Nat.shiftLeft_eq]
  omega

theorem commits_cases {st : SeqStep} (h : st.commits = true) :
    st = .rd .commit ∨ st = .wr .commit ∨ st = .er .commit := by
  unfold SeqStep.commits at h
  split at h
  · exact .inl rfl
  · exact .inr (.inl rfl)
  · exact .inr (.inr rfl)
  · cases h

/-- The sink takes a committed chunk whole when it answers ok (R139, R202). -/
theorem Inv.readCommit_sink {s t : State} (h : Inv s) (hs : s.step = .rd .commit)
    (he : engineStep s = .next t) (ha : s.ans.sinkOk = true) : t.sink = s.sink ++ s.rxPayload := by
  rw [h.engineStep_runs hs (by simp) rfl, stepAct] at he
  obtain ⟨hrem, hlen, -⟩ := h.chunk_facts (by rw [hs]; rfl)
  rcases sinkCall_cases s with ⟨h0, -⟩ | ⟨-, -, ⟨-, e⟩ | ⟨hno, -⟩⟩
  · omega
  · rw [e] at he
    cases he
    rfl
  · cases ha.symm.trans hno

/-- The commits of WRITE and ERASE leave the sink alone (R203, R205). -/
theorem Inv.ackCommit_sink {s t : State} (h : Inv s) (hs : s.step = .wr .commit ∨ s.step = .er .commit)
    (he : engineStep s = .next t) : t.sink = s.sink := by
  rcases hs with e | e <;> rw [h.engineStep_runs e (by simp) rfl] at he <;> cases he <;> rfl

/-- The checks that a whole response has passed, as numbers (R104, R120, R169). -/
theorem State.rxFrameOk.numbers {s : State} {sh : Shape} {n : Nat} (h : s.rxFrameOk sh n) (hn : 8 ≤ n) :
    (sh = .read → (s.rxbuf.read 6).toNat + 256 * (s.rxbuf.read 7).toNat = s.chunkLen.toNat) ∧
      s.rxbuf.read 0 = s.cfg.raw.marker ∧ s.rxbuf.read 1 = 0x00 ∧
      byteSum (s.rxbuf.readBytes 0 (n - 1)) % 256 = (s.rxbuf.read (n - 1)).toNat := by
  obtain ⟨⟨hmarker, hstatus, hlen⟩, hsum⟩ := h
  refine ⟨fun hr => ?_, hmarker (by omega), hstatus (by omega), ?_⟩
  · rw [← hlen hr hn, rd16_toNat]
  · rw [← hsum, Codec.sum8_eq_byteSum, BitVec.toNat_ofNat]

/-- Settles O59: only a commit moves the results, and there the invariant has the response. -/
theorem commitNeedsValidatedResponse : Obligations.CommitNeedsValidatedResponse := by
  intro s u t a h hm hs hne
  rw [step_of_nextTurn hm] at hs
  obtain ⟨ms, d, rfl⟩ := nextTurn_snd hm
  have h' : Inv { s with inputs := ms, draws := d, ans := a } := h.of_unread rfl
  have hc : s.step.commits = true := by
    by_contra hno
    obtain ⟨hsink, hchunks⟩ := h'.engineStep_keepsResults (Bool.eq_false_iff.2 hno) hs
    exact hne.elim (fun x => x hsink) fun x => x hchunks
  obtain ⟨-, hread, hack⟩ := h.response
  rcases commits_cases hc with e | e
  · obtain ⟨hlen, hmarker, hstatus, hsum⟩ := (hread e).numbers (by rw [Config.hdrLen_eq]; omega)
    exact ⟨_, .inl ⟨e, rfl, hlen rfl⟩, hmarker, hstatus, hsum, fun _ ha => h'.readCommit_sink e hs ha⟩
  · obtain ⟨-, hmarker, hstatus, hsum⟩ := (hack e).numbers (by decide)
    have hnr : s.step ≠ .rd .commit := by rcases e with e | e <;> simp [e]
    exact ⟨_, .inr ⟨e, rfl, h'.ackCommit_sink e hs⟩, hmarker, hstatus, hsum, fun e' => absurd e' hnr⟩

end Sys2Proof.Machine
end

section
/-!
SUPPORT. The decoders read backwards, and the bytes of the frames and of the training pattern (R87 to R101, R151):
O3, O5, O6 and O14.
-/

namespace Sys2Proof.Codec

/-- The checksum as a number (R120). -/
theorem sum8_toNat (bs : List Byte) : (sum8 bs).toNat = Machine.byteSum bs % 256 := by
  rw [sum8_eq_byteSum, BitVec.toNat_ofNat]

/-! ## Frames behind a header, read backwards -/

/-- A frame whose trailer passes is its header's fields, its payload and its stamp (R88, R90). -/
theorem frame_eq_stamped {m x a0 a1 a2 a3 n0 n1 t : Byte} {rest : List Byte}
    (h : trailerOk (m :: x :: a0 :: a1 :: a2 :: a3 :: n0 :: n1 :: t :: rest) = true) :
    m :: x :: a0 :: a1 :: a2 :: a3 :: n0 :: n1 :: t :: rest =
      stamped (header m x (rd32 a0 a1 a2 a3) (rd16 n0 n1) ++ (t :: rest).dropLast) := by
  rw [header, le32_rd32, le16_rd16]
  exact stamped_of_trailerOk h

/-! ## Request codes -/

/-- REQ_OP's two stored bits are the code of the request they select (R23, R87). -/
theorem opCode_opOfCode (v : BitVec 2) : opCode (opOfCode v) = v := by
  revert v
  decide

/-! ## The training pattern -/

theorem length_trainingPairs (k : Nat) : (trainingPairs k).length = 2 * k := by
  induction k with
  | zero => rfl
  | succ k ih =>
    rw [trainingPairs, List.length_cons, List.length_cons, ih]
    omega

/-- Even offsets hold 0x18 and odd ones 0xFF (R97). -/
theorem trainingPairs_getElem? {k i : Nat} (h : i < 2 * k) :
    (trainingPairs k)[i]? = some (if i % 2 = 0 then 0x18 else 0xFF) := by
  induction k generalizing i with
  | zero => omega
  | succ k ih =>
    match i with
    | 0 => rfl
    | 1 => rfl
    | i + 2 =>
      rw [trainingPairs, List.getElem?_cons_succ, List.getElem?_cons_succ, ih (by omega),
        Nat.add_mod_right]

/-- Settles O14, from the pattern of any number of pairs. -/
theorem trainingPatternAlternates : Obligations.TrainingPatternAlternates :=
  fun _ => ⟨length_trainingPairs 48, fun _ h => trainingPairs_getElem? (k := 48) h⟩

end Sys2Proof.Codec

namespace Sys2Proof

/-! ## Encoding what was decoded -/

/-- A command's fields encode to the frame they were read from, whichever sub-op it has (R91 to R94). -/
theorem encode_commandFields {c : Config.Params} {x : Byte} {a : Word} {n : Half} {d : List Byte} {i : Instr}
    (h : Decode.commandFields c x a n d = .ok i) :
    encode c i = .command (Codec.stamped (Codec.header c.raw.marker x a n ++ d)) := by
  unfold Decode.commandFields at h
  split_ifs at h with hread hd _ hwrite hn _ hall hdn ha hsector hdn _ <;> cases h
  · rw [hread, not_not.1 hd, List.append_nil]
    rfl
  · rw [hwrite, not_not.1 hn]
    rfl
  · obtain ⟨hd, hn⟩ := not_or.1 hdn
    rw [hall, not_not.1 hd, not_not.1 hn, ha, List.append_nil]
    rfl
  · obtain ⟨hd, hn⟩ := not_or.1 hdn
    rw [hsector, not_not.1 hd, not_not.1 hn, List.append_nil]
    rfl

/-- A decoded command frame is the encoding of its instruction (R88, R90 to R94). -/
theorem encode_of_command {c : Config.Params} {bs : List Byte} {i : Instr}
    (h : Decode.command c bs = .ok i) : encode c i = .command bs := by
  unfold Decode.command at h
  split at h
  case h_1 m x a0 a1 a2 a3 n0 n1 t rest =>
    split_ifs at h with hm htr
    rw [encode_commandFields h, Codec.frame_eq_stamped (Bool.not_eq_false _ ▸ htr), not_not.1 hm]
  case h_2 => cases h

/-- A decoded response frame is the encoding of its instruction, in the shape it was read in (R95, R96). -/
theorem encode_of_response {c : Config.Params} {sh : Shape} {bs : List Byte} {i : Instr}
    (h : Decode.response c sh bs = .ok i) : encode c i = .response sh bs := by
  unfold Decode.response at h
  split at h
  case h_2 => cases h
  case h_1 m st b2 b3 b4 b5 b6 b7 t rest =>
    cases sh with
    | read =>
      dsimp only at h
      split_ifs at h with hm hst hlen htr
      cases h
      have hn : BitVec.ofNat 16 (t :: rest).dropLast.length = Codec.rd16 b6 b7 := by
        rw [← not_not.1 (not_or.1 hlen).2, BitVec.ofNat_toNat, BitVec.setWidth_eq]
      rw [Codec.frame_eq_stamped (Bool.not_eq_false _ ▸ htr), not_not.1 hm, not_not.1 hst, encode,
        Codec.rspReadBody, hn]
    | ack9 =>
      dsimp only at h
      split_ifs at h with hm hst hrest htr
      cases h
      obtain rfl := not_not.1 hrest
      rw [Codec.frame_eq_stamped (Bool.not_eq_false _ ▸ htr), Codec.header, Codec.le32_rd32,
        Codec.le16_rd16, not_not.1 hm, not_not.1 hst]
      rfl

/-- A decoded single-byte answer is the encoding of its instruction (R98, R99). -/
theorem encode_of_reply {c : Config.Params} {bs : List Byte} {i : Instr}
    (h : Decode.reply bs = .ok i) : encode c i = .reply bs := by
  unfold Decode.reply at h
  split at h
  case h_1 b =>
    split_ifs at h with hhs hgen <;> cases h
    · rw [hhs]; rfl
    · rw [hgen]; rfl
  case h_2 => cases h

/-- A decoded constant table is the encoding of the row that sends it (R97, R100). -/
theorem encode_of_asset {c : Config.Params} {k : Asset} {bs : List Byte} {i : Instr}
    (h : Decode.asset c k bs = .ok i) : encode c i = .asset k bs := by
  unfold Decode.asset at h
  split_ifs at h with hbs
  cases h
  rw [hbs]
  cases k <;> rfl

/-- A decoded mode code is the encoding of its await (R151). -/
theorem encode_of_mode {c : Config.Params} {v : BitVec 3} {i : Instr}
    (h : Decode.mode v = .ok i) : encode c i = .mode v := by
  unfold Decode.mode at h
  split_ifs at h with heq hack hcount hframe <;> cases h
  · rw [heq]; rfl
  · rw [hack]; rfl
  · rw [hcount]; rfl
  · rw [hframe]; rfl

/-- A decoded checksum form is the encoding of its primitive (R121 to R123). -/
theorem encode_of_sum {c : Config.Params} {f : SumForm} {i : Instr}
    (h : Decode.sum f = .ok i) : encode c i = .sum f := by
  unfold Decode.sum at h
  dsimp only at h
  split_ifs at h
  cases h
  cases f <;> rfl

theorem encode_call (c : Config.Params) (k : Call) : encode c (Decode.call k) = .call k := by
  cases k <;> rfl

/-- A stage comes back as itself, OPEN as the call it is (R191, R195). -/
theorem encode_of_stage {c : Config.Params} {st : SeqStep} {i : Instr} (h : Decode.stage st = .ok i) :
    encode c i = if st = .openPort then .call .openPort else .stage st := by
  cases st <;> cases h <;> rfl

/-- Of a request word the two stored bits come back (R87). -/
theorem encode_request (c : Config.Params) (w : Word) :
    encode c (Decode.request w) = .request ((w.extractLsb' 0 2).setWidth 32) := by
  rw [← Codec.opCode_opOfCode (w.extractLsb' 0 2), Decode.request]
  cases Codec.opOfCode (w.extractLsb' 0 2) <;> rfl

/-- Settles O5, one decoder at a time. -/
theorem encodeDecode : Obligations.EncodeDecode := by
  refine fun c i => ⟨fun bs => encode_of_command, fun sh bs => encode_of_response, fun bs => encode_of_reply,
    ?stream, fun k bs => encode_of_asset, fun v => encode_of_mode, fun f => encode_of_sum, ?call, ?start,
    fun st => encode_of_stage, ?request⟩
  case stream =>
    intro bs h
    simp only [decode, Decode.stream] at h
    split_ifs at h
    cases h
    rfl
  case call =>
    intro k h
    cases h
    exact encode_call c k
  case start =>
    intro h
    cases h
    rfl
  case request =>
    intro w h
    cases h
    exact encode_request c w

/-! ## Marker and trailer -/

/-- A command or response frame is a stamped body that starts with the marker (R88); the case split leaves the
six rows that are frames. -/
theorem encode_frame {c : Config.Params} {i : Instr} {bs : List Byte}
    (h : encode c i = .command bs ∨ ∃ sh, encode c i = .response sh bs) :
    ∃ body, bs = Codec.stamped (c.raw.marker :: body) := by
  rcases h with h | ⟨sh, h⟩ <;> cases i <;> cases h <;> exact ⟨_, rfl⟩

/-- Settles O6: the marker heads the body, and the stamp is its sum. -/
theorem framesCarryMarkerAndTrailer : Obligations.FramesCarryMarkerAndTrailer := by
  intro c i bs h
  obtain ⟨body, rfl⟩ := encode_frame h
  exact ⟨rfl, c.raw.marker :: body, _, rfl, Codec.sum8_toNat _⟩

/-! ## Words written out -/

/-- A code that encodes a well-formed instruction decodes to it. -/
theorem decode_of_encode {c : Config.Params} {i : Instr} {k : Code} (h : encode c i = k)
    (hw : i.wf = true) : decode c k = .ok i := h ▸ decodeEncode c i hw

/-- Settles O3: each frame is the encoding of its instruction under the profile's bytes, and the other words
evaluate. -/
theorem writtenWordsDecode : Obligations.WrittenWordsDecode := by
  intro c hmarker hread hwrite hall hsector
  refine ⟨decode_of_encode ?_ rfl, decode_of_encode ?_ rfl, decode_of_encode ?_ rfl, decode_of_encode ?_ rfl,
    decode_of_encode ?_ rfl, decode_of_encode ?_ rfl, rfl, rfl, rfl, rfl, rfl, rfl, rfl, rfl, rfl, rfl⟩
  · rw [encode, Codec.readBody, hmarker, hread]; rfl
  · rw [encode, Codec.writeHeader, hmarker, hwrite]; rfl
  · rw [encode, Codec.eraseAllBody, hmarker, hall]; rfl
  · rw [encode, Codec.eraseSectorBody, hmarker, hsector]; rfl
  · rw [encode, Codec.rspReadBody, hmarker]; rfl
  · rw [encode, Codec.rspAck9Body, hmarker]; rfl

end Sys2Proof
end

section
/-!
SUPPORT. The command builders by what they leave in `txbuf`, and the awaits on one polled byte (R144 to R149, R162
to R165): O11, O12, O24, O25 and O26.
-/

namespace Sys2Proof.Machine

/-! ## The command builders -/

/-- A built frame slot by slot: the body from index 0, its sum behind it, nothing else touched (R88, R162 to
R165). -/
theorem Built.slots {body : List Byte} {s t : State} (h : Built body s t) :
    t.txbuf.readBytes 0 body.length = body ∧
      (t.txbuf.read body.length).toNat = byteSum body % 256 ∧ t.txlen = body.length + 1 ∧
      (∀ x, body.length + 1 ≤ x → t.txbuf.read x = s.txbuf.read x) ∧
      t = { s with txbuf := t.txbuf, txlen := t.txlen } := by
  have hlen : t.txlen = body.length + 1 := by rw [h.eq]
  have hf := h.frame
  rw [State.txFrame, hlen, Memory.readBytes_add, Codec.stamped, Nat.zero_add] at hf
  obtain ⟨hbody, hsum⟩ := List.append_inj hf (by simp)
  have hsum : t.txbuf.read body.length = Codec.sum8 body := List.head_eq_of_cons_eq hsum
  exact ⟨hbody, hsum ▸ Codec.sum8_toNat body, hlen, fun x hx => h.rest x hx, by rw [hlen]; exact h.eq⟩

/-- Settles O11: each row runs the shared builder on its eight header bytes. -/
theorem buildersWriteNineBytes : Obligations.BuildersWriteNineBytes := by
  refine ⟨fun a n s => ?read, fun s => ⟨?eraseAll, fun a => ?eraseSector⟩⟩
  case read =>
    intro body
    obtain ⟨t, ht, hb⟩ := buildTx_built (body := Codec.readBody s.cfg a n) s (by simp)
    exact ⟨t, congrArg (Act.settle s.step id) ht, hb.slots⟩
  case eraseAll =>
    obtain ⟨t, ht, hb⟩ := buildTx_built (body := Codec.eraseAllBody s.cfg) s (by simp)
    obtain ⟨-, -, hlen, hrest⟩ := hb.slots
    refine ⟨t, congrArg (Act.settle s.step id) ht, ?_, hlen, hrest⟩
    have hf := hb.frame
    rw [State.txFrame, hlen] at hf
    refine hf.trans ?_
    simp [Codec.stamped, Codec.eraseAllBody, Codec.header, Codec.le32, Codec.le16, Codec.sum8, Codec.sumFrom]
  case eraseSector =>
    intro body
    obtain ⟨t, ht, hb⟩ := buildTx_built (body := Codec.eraseSectorBody s.cfg a) s (by simp)
    exact ⟨t, congrArg (Act.settle s.step id) ht, hb.slots⟩

/-- Settles O12: the body is the header with a zero length slot, then the payload. -/
theorem buildWriteWritesFrame : Obligations.BuildWriteWritesFrame := by
  intro a d s hd body
  obtain ⟨t, ht, hb⟩ := buildWrite_built (a := a) (d := d) s hd
  have hbody : Codec.writeHeader s.cfg a ++ d = body := rfl
  have hlen : body.length = 8 + d.length := by rw [← hbody]; simp
  obtain ⟨hread, hsum, htl, hrest, he⟩ := (hbody ▸ hb).slots
  rw [hlen] at hread hsum
  exact ⟨t, congrArg (Act.settle s.step id) ht, hread, hsum, by omega, fun x hx => hrest x (by omega), he⟩

/-! ## An await on one polled byte -/

/-- A poll that brings the head of the queue (R133). -/
def State.polled (b : Byte) (q : List Byte) (s : State) : State :=
  { s with hist := s.hist ++ [.poll (.byte b)], rxq := q }

theorem State.polled_cmode (b : Byte) (q : List Byte) (s : State) : (s.polled b q).cmode = s.cmode := rfl
theorem State.polled_cexp (b : Byte) (q : List Byte) (s : State) : (s.polled b q).cexp = s.cexp := rfl
theorem State.polled_cidx (b : Byte) (q : List Byte) (s : State) : (s.polled b q).cidx = s.cidx := rfl
theorem State.polled_cneed (b : Byte) (q : List Byte) (s : State) : (s.polled b q).cneed = s.cneed := rfl

/-- In its mode an await gives the head of the queue to the mode's accept (R133, R143). -/
theorem runAwait_byte {m : CMode} {st : SeqStep} {s : State} {b : Byte} {q : List Byte} (hm : s.cmode = m)
    (hs : s.step = st) (ha : s.ans.poll = .byte) (hq : s.rxq = b :: q) :
    runAwait m s = (accept b (s.polled b q)).settle st (State.finishAwait st) := by
  rw [runAwait, if_pos hm, hs, collect_byte ha hq]
  rfl

/-- A failed await in the code numbers of its cause and stage (R149, R246). -/
theorem failAwait_settle (c : Cause) (u : State) (st : SeqStep) (f : State → State) :
    (failAwait c u).settle st f =
      .next (u.awaitFailedAt c c.kind.code.toNat (stageOf u.op st).toNat c.code.toNat) := by
  rw [failAwait, Act.settle_fail, State.raise_eq_failedAt]
  rfl

/-- Settles O24: EQ and ACK end on their first byte, which decides how. -/
theorem awaitOneByteDecides : Obligations.AwaitOneByteDecides := by
  refine ⟨fun s b q hm hs ha hq => ?eq, fun s b q hm ha hq p hp hs => ?ack⟩
  case eq =>
    have hx : exec .awaitEq s = runAwait .eq s := rfl
    rw [hx, runAwait_byte hm hs ha hq, accept_eq ((s.polled_cmode b q).trans hm), acceptEq, State.polled_cexp]
    refine ⟨fun hb => ?_, fun hb => ?_⟩
    · rw [if_pos hb]
      rfl
    · rw [if_neg hb]
      exact failAwait_settle ..
  case ack =>
    have hx : exec .awaitAck s = runAwait .ack s := rfl
    rw [hx, runAwait_byte hm hs ha hq, accept_ack ((s.polled_cmode b q).trans hm), acceptAck]
    simp only [List.mem_cons, List.not_mem_nil, or_false] at hp
    refine ⟨fun hb => ?_, fun hb => ?_⟩
    · rw [if_pos hb]
      rcases hp with rfl | rfl <;> rfl
    · rw [if_neg hb]
      rcases hp with rfl | rfl <;> exact failAwait_settle ..

/-- Settles O25: a byte is counted, and the last one ends the await. -/
theorem awaitCountCounts : Obligations.AwaitCountCounts := by
  intro s b q hm hs ha hq
  have hx : exec .awaitCount s = runAwait .count s := rfl
  rw [hx, runAwait_byte hm hs ha hq, accept_count ((s.polled_cmode b q).trans hm), acceptCount,
    State.polled_cidx, State.polled_cneed]
  refine ⟨fun hn => ?_, fun hn => ?_⟩
  · rw [if_neg hn]
    rfl
  · rw [if_pos hn]
    rfl

/-! ## A byte of a frame -/

/-- A byte of a frame, stored and counted (R147). -/
def State.stored (b : Byte) (s : State) : State :=
  { s with rxbuf := Memory.write s.cidx b s.rxbuf, cidx := s.cidx + 1 }

theorem State.stored_cidx (b : Byte) (s : State) : (s.stored b).cidx = s.cidx + 1 := rfl
theorem State.stored_cneed (b : Byte) (s : State) : (s.stored b).cneed = s.cneed := rfl
theorem State.stored_chunkLen (b : Byte) (s : State) : (s.stored b).chunkLen = s.chunkLen := rfl

/-- The length field of a read response, as a number (R14, R95). -/
def Memory.frameLen (m : Memory) : Nat := (m.read 6).toNat + 256 * (m.read 7).toNat

/-- The length check by numbers: 0x200 first, then `chunk_len` (R147, R148). -/
theorem checkLength_of_header {u : State} (hsh : u.cshape = .read) (h8 : u.cidx = 8) :
    checkLength u =
      if 0x200 < u.rxbuf.frameLen then failAwait .badLength u
      else if u.rxbuf.frameLen ≠ u.chunkLen.toNat then failAwait .lenMismatch u
      else .ok { u with cneed := 8 + u.rxbuf.frameLen + 1 } := by
  have hne : Codec.rd16 (u.rxbuf.read 6) (u.rxbuf.read 7) ≠ u.chunkLen ↔
      u.rxbuf.frameLen ≠ u.chunkLen.toNat := by
    rw [Ne, ← BitVec.toNat_inj, rd16_toNat]
    rfl
  unfold checkLength
  rw [if_pos ⟨hsh, h8⟩]
  simp only [rd16_toNat, hne]
  rfl

/-- Away from the length field there is no length check (R148). -/
theorem checkLength_of_not {u : State} (h : ¬(u.cshape = .read ∧ u.cidx = 8)) : checkLength u = .ok u :=
  if_neg h

/-- The trailer is checked once the whole frame is stored (R147). -/
theorem checkEnd_stored (b : Byte) {s : State} (hx : s.cidx < 521) :
    checkEnd (s.stored b) =
      if s.cidx + 1 = s.cneed then
        if byteSum ((s.stored b).rxbuf.readBytes 0 s.cidx) % 256 = b.toNat then doneAwait (s.stored b)
        else failAwait .badChecksum (s.stored b)
      else .hold (s.stored b) := by
  have hsum : Codec.sum8 ((s.stored b).rxbuf.readBytes 0 s.cidx) = (s.stored b).rxbuf.read s.cidx ↔
      byteSum ((s.stored b).rxbuf.readBytes 0 s.cidx) % 256 = b.toNat := by
    rw [← BitVec.toNat_inj, Codec.sum8_toNat, State.stored, Memory.read_write_self]
  unfold checkEnd
  rw [State.stored_cidx, State.stored_cneed]
  by_cases hn : s.cidx + 1 = s.cneed
  · rw [if_pos hn, if_pos hn, ← hn, validateRx_eq _ (by omega) (by omega), Nat.add_sub_cancel]
    simp only [hsum]
    split_ifs <;> rfl
  · rw [if_neg hn, if_neg hn]

/-- AWAIT_FRAME's accept of a byte: the first failing check decides, in byte order, and the end of the frame comes
last (R147, R148). -/
theorem acceptFrame_eq (b : Byte) {s : State} (hx : s.cidx < 521) :
    acceptFrame b s =
      if s.cidx = 0 ∧ b ≠ s.cfg.raw.marker then failAwait .badMarker (s.stored b)
      else if s.cidx = 1 ∧ b ≠ 0x00 then failAwait .badStatus (s.stored b)
      else if s.cshape = .read ∧ s.cidx = 7 then
        if 0x200 < (s.stored b).rxbuf.frameLen then failAwait .badLength (s.stored b)
        else if (s.stored b).rxbuf.frameLen ≠ s.chunkLen.toNat then failAwait .lenMismatch (s.stored b)
        else .hold { s.stored b with cneed := 8 + (s.stored b).rxbuf.frameLen + 1 }
      else checkEnd (s.stored b) := by
  have hidx : (s.stored b).cidx = 8 ↔ s.cidx = 7 := Nat.succ_inj
  have hbytes : acceptFrame b s =
      if s.cidx = 0 ∧ b ≠ s.cfg.raw.marker then failAwait .badMarker (s.stored b)
      else if s.cidx = 1 ∧ b ≠ 0x00 then failAwait .badStatus (s.stored b)
      else (checkLength (s.stored b)).andThen checkEnd := if_neg (by simpa using hx)
  rw [hbytes]
  by_cases h : s.cshape = .read ∧ s.cidx = 7
  · have hmore : (s.stored b).cidx ≠ 8 + (s.stored b).rxbuf.frameLen + 1 := by
      rw [hidx.2 h.2]
      omega
    rw [if_pos h, checkLength_of_header (u := s.stored b) h.1 (hidx.2 h.2), State.stored_chunkLen]
    split_ifs
    case neg => exact if_neg hmore
    all_goals rfl
  · rw [if_neg h, checkLength_of_not (u := s.stored b) (fun h' => h ⟨h'.1, hidx.1 h'.2⟩), Act.andThen_ok]

/-- The stage number and the commit step of the three frame awaits (R149, R191, R207, R242). -/
theorem frameAwait_step (op : Op) : ∀ p ∈ [(SeqStep.rd .await, 7, SeqStep.rd .commit),
    (.wr .await, 8, .wr .commit), (.er .await, 9, .er .commit)],
    (stageOf op p.1).toNat = p.2.1 ∧ ∀ u : State, u.finishAwait p.1 = u.goto p.2.2 := by
  simp only [List.mem_cons, List.not_mem_nil, or_false]
  rintro p (rfl | rfl | rfl) <;> exact ⟨rfl, fun _ => rfl⟩

/-- Settles O26: the byte is stored by `Memory.write`, and each check of `acceptFrame_eq` settles as it says. -/
theorem awaitFrameChecksInByteOrder : Obligations.AwaitFrameChecksInByteOrder := by
  intro s b q hm ha hq hidx p hp hs
  obtain ⟨hstage, hgo⟩ := frameAwait_step s.op p hp
  refine ⟨Memory.write s.cidx b s.rxbuf, Memory.read_write_self .., fun x hx => Memory.read_write_other hx ..,
    fun h => Memory.wf_write h hidx, ?_⟩
  intro got len
  have hx : exec .awaitFrame s = runAwait .frame s := rfl
  have hgot : (s.polled b q).stored b = got := rfl
  have hlen : got.rxbuf.frameLen = len := rfl
  rw [hx, runAwait_byte hm hs ha hq, accept_frame ((s.polled_cmode b q).trans hm),
    acceptFrame_eq (s := s.polled b q) _ hidx, checkEnd_stored (s := s.polled b q) b hidx, hgot, hlen]
  simp only [apply_ite (Act.settle p.1 (State.finishAwait p.1)), apply_ite Host.Outcome.next, failAwait_settle,
    doneAwait, Act.settle_ok, Act.settle_hold, hgo, ← hstage]
  rfl

end Sys2Proof.Machine
end

section
/-!
SUPPORT. The byte sum under appends, reorderings and single writes, and the three checksum primitives as they run
(R120 to R125): O7, O8, O9 and O10.
-/

namespace Sys2Proof.Machine

/-! ## The byte sum -/

theorem byteSum_append (xs ys : List Byte) : byteSum (xs ++ ys) = byteSum xs + byteSum ys := by
  simp [byteSum]

theorem byteSum_cons (b : Byte) (bs : List Byte) : byteSum (b :: bs) = b.toNat + byteSum bs := by
  simp [byteSum]

/-- The sum does not depend on the order of the bytes (R125). -/
theorem byteSum_perm {xs ys : List Byte} (h : xs.Perm ys) : byteSum xs = byteSum ys :=
  (h.map BitVec.toNat).sum_eq

/-- A read around one of its indices. -/
theorem Memory.readBytes_split (m : Memory) {x k : Nat} (h : x < k) :
    m.readBytes 0 k = m.readBytes 0 x ++ m.read x :: m.readBytes (x + 1) (k - (x + 1)) := by
  obtain ⟨j, rfl⟩ := Nat.exists_eq_add_of_lt h
  rw [Nat.add_assoc, Memory.readBytes_add, Nat.zero_add, Memory.readBytes, ← Nat.add_assoc,
    Nat.add_right_comm, Nat.add_sub_cancel_left]

/-- A write below `k` moves the sum of the first `k` bytes by what it changes there; subtraction-free. -/
theorem byteSum_write {m : Memory} {x k : Nat} (b : Byte) (h : x < k) :
    byteSum ((Memory.write x b m).readBytes 0 k) + (m.read x).toNat =
      byteSum (m.readBytes 0 k) + b.toNat := by
  rw [Memory.readBytes_split _ h, Memory.readBytes_split m h, Memory.read_write_self,
    Memory.readBytes_write_out m (by omega), Memory.readBytes_write_out m (by omega)]
  simp only [byteSum_append, byteSum_cons]
  omega

/-- A frame of `n` bytes in a buffer passes when its last byte is the sum of those before it (R123). -/
def Memory.TrailerSums (m : Memory) (n : Nat) : Prop :=
  byteSum (m.readBytes 0 (n - 1)) % 256 = (m.read (n - 1)).toNat

/-- One changed byte breaks a trailer that passes: before the trailer it moves the sum by less than 256, and at
the trailer it moves the byte alone (R124). -/
theorem Memory.TrailerSums.write_breaks {m : Memory} {n x : Nat} {b : Byte} (h : m.TrailerSums n)
    (hx : x < n) (hb : b ≠ m.read x) : ¬ (Memory.write x b m).TrailerSums n := by
  have hne : b.toNat ≠ (m.read x).toNat := fun e => hb (BitVec.eq_of_toNat_eq e)
  unfold Memory.TrailerSums at h ⊢
  rcases Nat.lt_or_ge x (n - 1) with hbody | htrailer
  · have hsum := byteSum_write (m := m) b hbody
    have hlt := b.isLt
    have hlt' := (m.read x).isLt
    rw [Memory.read_write_other (by omega)]
    omega
  · obtain rfl : x = n - 1 := by omega
    rw [Memory.read_write_self, Memory.readBytes_write_out m (by omega), h]
    exact hne.symm

/-! ## The primitives as they run -/

theorem exec_checksumStamp {n : Nat} (s : State) (h : n ≤ 520) :
    exec (.checksumStamp n) s = .next { s with
      txbuf := Memory.write n (Codec.sum8 (s.txbuf.readBytes 0 n)) s.txbuf
      txlen := n + 1 } := by
  have hx : exec (.checksumStamp n) s = (stampTx n s).settle s.step id := rfl
  rw [hx, stampTx_eq s (by rw [Config.bufLen_eq]; omega), Act.settle_ok, id]

/-- CHECKSUM_VALIDATE is decided by the trailer's arithmetic alone (R123, R149). -/
theorem exec_checksumValidate {n : Nat} (s : State) (h0 : n ≠ 0) (h : n ≤ 521) :
    (s.rxbuf.TrailerSums n → exec (.checksumValidate n) s = .next s) ∧
      (¬ s.rxbuf.TrailerSums n → exec (.checksumValidate n) s =
        .next (s.awaitFailedAt .badChecksum 3 (stageOf s.op s.step).toNat 7)) := by
  have hx : exec (.checksumValidate n) s = (validateRx n s).settle s.step id := rfl
  have hsum : Codec.sum8 (s.rxbuf.readBytes 0 (n - 1)) = s.rxbuf.read (n - 1) ↔ s.rxbuf.TrailerSums n := by
    rw [← BitVec.toNat_inj, Codec.sum8_toNat, Memory.TrailerSums]
  rw [hx, validateRx_eq s h0 h]
  refine ⟨fun hp => ?_, fun hf => ?_⟩
  · rw [if_pos (hsum.2 hp), Act.settle_ok, id]
  · rw [if_neg fun e => hf (hsum.1 e), failAwait_settle]
    rfl

/-! ## The obligations -/

/-- Settles O7: the accumulator is the byte sum, which CHECKSUM keeps in `sumOut`. -/
theorem checksumIsSumModulo256 : Obligations.ChecksumIsSumModulo256 := by
  refine fun bs => ⟨Codec.sum8_toNat bs, fun s => ?_⟩
  have hx : exec (.checksum bs) s = .next { s with sumOut := Codec.sum8 bs } := rfl
  rw [hx, Codec.sum8_eq_byteSum]

/-- Settles O8: the stamp is one `Memory.write` at index `n`. -/
theorem stampWritesTrailer : Obligations.StampWritesTrailer := by
  intro n s h
  refine ⟨_, exec_checksumStamp s h, ?_, rfl, fun x hx => Memory.read_write_other hx .., rfl⟩
  rw [Memory.read_write_self, Codec.sum8_toNat]

/-- Settles O9: the validation in arithmetic, for frames of a length the rule admits. -/
theorem validateChecksTrailer : Obligations.ValidateChecksTrailer :=
  fun n s h9 h => exec_checksumValidate (n := n) s (by omega) h

/-- Settles O10: one write breaks the trailer, and what keeps the trailer byte and the sum keeps it. -/
theorem checksumDetectionLaws : Obligations.ChecksumDetectionLaws := by
  intro n s h9 h hpass
  have h0 : n ≠ 0 := by omega
  refine ⟨fun x b hx hb => ?changed, fun u htrailer hbody => ?cancelled⟩
  case changed =>
    have hbroken : ¬ (Memory.write x b s.rxbuf).TrailerSums n :=
      Memory.TrailerSums.write_breaks hpass hx hb
    exact (exec_checksumValidate { s with rxbuf := Memory.write x b s.rxbuf } h0 h).2 hbroken
  case cancelled =>
    have hsum : byteSum (u.rxbuf.readBytes 0 (n - 1)) % 256 =
        byteSum (s.rxbuf.readBytes 0 (n - 1)) % 256 :=
      hbody.elim (fun hperm => by rw [byteSum_perm hperm]) id
    have hu : u.rxbuf.TrailerSums n := by rw [Memory.TrailerSums, hsum, htrailer, hpass]
    exact (exec_checksumValidate u h0 h).1 hu

end Sys2Proof.Machine
end

section
/-!
SUPPORT. The calls on the Transport and the image stream, one answer at a time (R131 to R140, R206): O16 to O21 and
O36.
-/

namespace Sys2Proof.Machine

/-- A failing action at a step, in the code numbers of its cause and stage (R192, R246). -/
theorem Act.settle_fail_numbers (st : SeqStep) (f : State → State) (c : Cause) (u : State) :
    (Act.fail c u).settle st f =
      .next (u.failedAt c.kind.code.toNat (stageOf u.op st).toNat c.code.toNat) := by
  rw [Act.settle_fail, State.raise_eq_failedAt]

/-! ## Transmission -/

/-- No TXWRITE of a session is empty: a frame has bytes when TXLEN says so, a table always (R97, R100, R273). -/
theorem State.txBytes_ne_nil {src : TxSrc} {s : State} (h : src = .frame → 1 ≤ s.txlen) :
    s.txBytes src ≠ [] := by
  cases src with
  | frame =>
    have hlen : (s.txBytes .frame).length = s.txlen := Memory.length_readBytes ..
    exact List.ne_nil_of_length_pos (hlen.symm ▸ h rfl)
  | training => exact assetBytes_ne_nil s.cfg .training
  | announce => exact assetBytes_ne_nil s.cfg .announce
  | loader => exact assetBytes_ne_nil s.cfg .loader
  | execute => exact assetBytes_ne_nil s.cfg .execute

section
variable {src : TxSrc} {s : State}

theorem txSend_of_fits (hlen : src = .frame → s.txlen ≤ 521) :
    txSend src s = txWrite (s.txBytes src) s := by
  rcases txSend_cases src s with ⟨hf, hlong, -⟩ | ⟨-, e⟩
  · exact absurd (hlen hf) (by omega)
  · exact e

/-- A count below the length: that many bytes are on the wire, and the call fails (R132). -/
theorem txSend_short {k : Nat} (hlen : src = .frame → s.txlen ≤ 521) (ha : s.ans.tx = .count k)
    (hk : k < (s.txBytes src).length) :
    txSend src s = .fail .shortWrite (s.transmitted (s.txBytes src) ((s.txBytes src).take k)) := by
  have hne : s.txBytes src ≠ [] := List.ne_nil_of_length_pos (by omega)
  simp only [txSend_of_fits hlen, txWrite, if_neg hne, State.transmitted, ha, if_neg (Nat.not_lt_of_gt hk),
    if_neg (Nat.ne_of_lt hk)]
  rfl

/-- An err: some leading part of the bytes is on the wire, and the call fails (R132). -/
theorem txSend_err (hlen : src = .frame → s.txlen ≤ 521) (hne : s.txBytes src ≠ [])
    (ha : s.ans.tx = .err) :
    txSend src s =
      .fail .writeFail (s.transmitted (s.txBytes src) ((s.txBytes src).take s.ans.wireOnErr)) := by
  simp only [txSend_of_fits hlen, txWrite, if_neg hne, State.transmitted, ha]
  rfl

/-- A count above the length is no answer (R132). -/
theorem txSend_above {k : Nat} (hlen : src = .frame → s.txlen ≤ 521) (hne : s.txBytes src ≠ [])
    (ha : s.ans.tx = .count k) (hk : (s.txBytes src).length < k) :
    txSend src s = .refuse .txCountAboveLength := by
  simp only [txSend_of_fits hlen, txWrite, if_neg hne, ha, if_pos hk]

end

/-- The seven transmitting steps: each is the TXWRITE of its operand form, at the stage R191 gives it. -/
theorem exec_transmittingStep (s : State) :
    ∀ p ∈ [(Instr.seqHandshake .train, TxSrc.training, 3), (.seqLoader .announceTx, .announce, 4),
        (.seqLoader .uploadTx, .loader, 5), (.seqLoader .execTx, .execute, 6),
        (.seqReadChunk .tx, .frame, 7), (.seqWriteChunk .tx, .frame, 8), (.seqErase .tx, .frame, 9)],
      ∃ st, exec p.1 s = seqStep st (txSend p.2.1 s) ∧ (stageOf s.op st).toNat = p.2.2 := by
  simp only [List.forall_mem_cons, List.not_mem_nil, false_imp_iff, implies_true, and_true]
  exact ⟨⟨.hs .train, rfl, rfl⟩, ⟨.ld .announceTx, rfl, rfl⟩, ⟨.ld .uploadTx, rfl, rfl⟩,
    ⟨.ld .execTx, rfl, rfl⟩, ⟨.rd .tx, rfl, rfl⟩, ⟨.wr .tx, rfl, rfl⟩, ⟨.er .tx, rfl, rfl⟩⟩

/-- Settles O16, by the Transport's answer. -/
theorem failedTransmission : Obligations.FailedTransmission := by
  intro s p hp hframe
  obtain ⟨st, hx, hstage⟩ := exec_transmittingStep s p hp
  have hlen : p.2.1 = .frame → s.txlen ≤ 521 := fun h => (hframe h).2
  have hne : s.txBytes p.2.1 ≠ [] := State.txBytes_ne_nil fun h => (hframe h).1
  rw [hx, seqStep, ← hstage]
  refine ⟨fun k ha hk => ?short, fun ha => ⟨s.ans.wireOnErr, ?err⟩, fun k ha hk => ?above⟩
  case short =>
    rw [txSend_short hlen ha hk]
    exact Act.settle_fail_numbers ..
  case err =>
    rw [txSend_err hlen hne ha]
    exact Act.settle_fail_numbers ..
  case above => rw [txSend_above hlen hne ha hk, Act.settle_refuse]

/-! ## OPEN -/

theorem openCall_ok {s : State} (h : s.ans.openOk = true) :
    openCall s = .ok { s with hist := s.hist ++ [.openPort true], portOpen := true, rxq := [] } := if_pos h

theorem openCall_err {s : State} (h : s.ans.openOk = false) :
    openCall s = .fail .openFail { s with hist := s.hist ++ [.openPort false] } :=
  if_neg (by simp [h])

/-- Settles O17, by the Transport's answer. -/
theorem openAnswers : Obligations.OpenAnswers := by
  intro s hs
  have hx : exec .openPort s =
      (openCall s).settle s.step fun u => if s.step = .openPort then u.advance .openPort else u := rfl
  rw [hx, hs]
  refine ⟨fun h => ?_, fun h => ?_⟩
  · rw [openCall_ok h, Act.settle_ok, if_pos rfl]
    rfl
  · rw [openCall_err h]
    exact Act.settle_fail_numbers ..

/-! ## POLL -/

theorem pollCall_byte {s : State} {b : Byte} {q : List Byte} (ha : s.ans.poll = .byte)
    (hq : s.rxq = b :: q) : pollCall s = .byte b (s.polled b q) := by
  rw [pollCall, ha, hq]
  rfl

theorem pollCall_noData {s : State} (ha : s.ans.poll = .noData) (hq : s.rxq = []) :
    pollCall s = .noData := by
  rw [pollCall, ha, hq]

theorem pollCall_err {s : State} (ha : s.ans.poll = .err) : pollCall s = .err := by
  rw [pollCall, ha]

/-- NoData is no answer of a queue that holds a byte (R133). -/
theorem pollCall_noData_illegal {s : State} (ha : s.ans.poll = .noData) (hq : s.rxq ≠ []) :
    pollCall s = .illegal := by
  obtain ⟨b, q, hq⟩ := List.exists_cons_of_ne_nil hq
  rw [pollCall, ha, hq]

/-- A byte is no answer of an empty queue (R133). -/
theorem pollCall_byte_illegal {s : State} (ha : s.ans.poll = .byte) (hq : s.rxq = []) :
    pollCall s = .illegal := by
  rw [pollCall, ha, hq]

/-- Settles O18, by the answer and the queue. -/
theorem pollAnswers : Obligations.PollAnswers := by
  intro s
  have hx : exec .poll s = execPoll s := rfl
  rw [hx, execPoll]
  refine ⟨fun b q ha hq => ?byte, fun ha hq => ?noData, fun ha => ?err, fun ha hq => ?queued,
    fun ha hq => ?empty⟩
  case byte =>
    rw [pollCall_byte ha hq]
    rfl
  case noData => rw [pollCall_noData ha hq]
  case err =>
    rw [pollCall_err ha]
    rfl
  case queued => rw [pollCall_noData_illegal ha hq]
  case empty => rw [pollCall_byte_illegal ha hq]

/-! ## FLUSH and the control line -/

/-- Settles O19: none of the three calls has a case to split. -/
theorem flushAndControlLine : Obligations.FlushAndControlLine := fun _ => ⟨rfl, rfl, rfl⟩

/-! ## CLOSE, STREAM_CLOSE and teardown -/

theorem closeCall_of_open {s : State} (h : s.portOpen = true) :
    closeCall s = { s with
      portOpen := false, ctlAsserted := false, hist := s.hist ++ [.close s.ans.closeOk] } := if_pos h

theorem closeCall_of_closed {s : State} (h : s.portOpen = false) : closeCall s = s :=
  if_neg (by simp [h])

theorem streamCloseCall_of_open {s : State} (h : s.streamOpen = true) :
    streamCloseCall s = { s with streamOpen := false, hist := s.hist ++ [.streamClose] } := if_pos h

theorem streamCloseCall_of_closed {s : State} (h : s.streamOpen = false) : streamCloseCall s = s :=
  if_neg (by simp [h])

/-- Settles O20, by what there is to release. -/
theorem closeCalls : Obligations.CloseCalls := fun _ =>
  ⟨fun h => congrArg Host.Outcome.next (closeCall_of_open h),
    fun h => congrArg Host.Outcome.next (closeCall_of_closed h),
    fun h => congrArg Host.Outcome.next (streamCloseCall_of_open h),
    fun h => congrArg Host.Outcome.next (streamCloseCall_of_closed h)⟩

/-- Settles O36: the two releasing steps are the calls of O20, each at its successor. -/
theorem teardownSteps : Obligations.TeardownSteps := by
  intro s
  have hclose : exec (.seqTeardown .close) s = .next ((closeCall s).goto (.td .stream)) := rfl
  have hstream : exec (.seqTeardown .stream) s = .next ((streamCloseCall s).goto (.td .finish)) := rfl
  rw [hclose, hstream]
  refine ⟨fun h => ?_, fun h => ?_, fun h => ?_, fun h => ?_, rfl⟩
  · rw [closeCall_of_open h]
    rfl
  · rw [closeCall_of_closed h]
    rfl
  · rw [streamCloseCall_of_open h]
    rfl
  · rw [streamCloseCall_of_closed h]
    rfl

/-! ## The image stream -/

/-- Settles O21: SRC_READ has one case, and SINK_WRITE within its range two. -/
theorem streamCalls : Obligations.StreamCalls := by
  refine fun s => ⟨rfl, fun h1 h2 => ?sink⟩
  intro payload
  have hx : exec .sinkWrite s = (sinkCall s).settle s.step id := rfl
  rw [hx]
  rcases sinkCall_cases s with ⟨h0, -⟩ | ⟨-, -, ⟨hok, e⟩ | ⟨hno, e⟩⟩
  · omega
  · refine ⟨fun _ => by rw [e]; rfl, fun hf => ?_⟩
    cases hok.symm.trans hf
  · refine ⟨fun hf => ?_, fun _ => ⟨s.ans.sinkOnErr, ?_⟩⟩
    · cases hno.symm.trans hf
    · rw [e]
      exact Act.settle_fail_numbers ..

end Sys2Proof.Machine
end

section
/-!
SUPPORT. The waits, the entry of an await, and the polls that bring it no byte (R141 to R143): O22, O23 and O27.
-/

namespace Sys2Proof.Machine

/-! ## WAIT -/

theorem waitCall_enters (t : WaitArg) {s : State} (h : s.waiting = false) :
    waitCall t s = .hold { s with t0 := s.now, waiting := true } := if_pos h

theorem waitCall_holds {t : WaitArg} {s : State} (hw : s.waiting = true) (h : s.now - s.t0 < s.waitTicks t) :
    waitCall t s = .hold s := by
  rw [waitCall, if_neg (by simp [hw]), if_neg (Nat.not_le_of_lt h)]

/-- What R141 says holds of every row that settles WAIT(T), at whatever step and whatever it then does. -/
theorem waitsFor_of_settle {t : WaitArg} {run : State → Out} {st : State → SeqStep} {after : State → State}
    (hrun : ∀ s, run s = (waitCall t s).settle (st s) after) :
    WaitsFor run (fun s => s.waitTicks t) after := by
  intro s
  rw [hrun]
  refine ⟨fun h => ?_, fun hw h => ?_, fun hw h => ?_⟩
  · rw [waitCall_enters t h, Act.settle_hold]
  · rw [waitCall_holds hw h, Act.settle_hold]
  · rw [waitCall_elapsed hw h, Act.settle_ok]

/-- An update behind a completed action belongs to what its completion does. -/
theorem Act.settle_andThen_ok (st : SeqStep) (f g : State → State) (a : Act) :
    (a.andThen fun u => .ok (g u)).settle st f = a.settle st (f ∘ g) := by
  cases a <;> rfl

/-- LD_FINAL is its WAIT, behind which alone the session is Ready (R198, R199). -/
theorem exec_ldFinal (s : State) :
    exec (.seqLoader .final) s = (waitCall .final s).settle (.ld .final)
      fun u => { u with session := .ready, step := .opDispatch } :=
  Act.settle_andThen_ok (.ld .final) (State.advance (.ld .final)) (fun u => { u with session := .ready }) _

/-- Settles O22: each row settles its WAIT, a stage at its step and the bare call at the current one. -/
theorem waitHoldsUntilElapsed : Obligations.WaitHoldsUntilElapsed := by
  have call : ∀ t, WaitsFor (exec (.wait t)) (fun s => s.waitTicks t) id := fun _ =>
    waitsFor_of_settle (st := State.step) fun _ => rfl
  have stage : ∀ {t run} (st next : SeqStep),
      (∀ s, run s = (waitCall t s).settle st (State.goto next)) →
        WaitsFor run (fun s => s.waitTicks t) (State.goto next) := fun st _ h =>
    waitsFor_of_settle (st := fun _ => st) h
  refine ⟨call .pdelay, call .hsSettle, call .preUpload, call .preExec, call .final, call .chunkSettle,
    ?powerWait, ?hsSettle, ?preUpload, ?preExec, ?final, ?rdSettle, ?wrSettle, ?erSettle⟩
  case powerWait => exact stage (.hs .powerWait) (.hs .train) fun _ => rfl
  case hsSettle => exact stage (.hs .settle) (.hs .flush) fun _ => rfl
  case preUpload => exact stage (.ld .preUpload) (.ld .uploadTx) fun _ => rfl
  case preExec => exact stage (.ld .preExec) (.ld .execTx) fun _ => rfl
  case final => exact waitsFor_of_settle (st := fun _ => .ld .final) exec_ldFinal
  case rdSettle => exact stage (.rd .settle) (.rd .tx) fun _ => rfl
  case wrSettle => exact stage (.wr .settle) (.wr .tx) fun _ => rfl
  case erSettle => exact stage (.er .settle) (.er .tx) fun _ => rfl

/-! ## The entry of an await -/

/-- An AWAIT row outside its mode is the await's entry, with the budget that stands in `ctimeout` (R142). -/
theorem runAwait_enters {m : CMode} {s : State} (h : s.cmode ≠ m) :
    runAwait m s = .next (s.enterAwait m s.ctimeout) := if_neg h

/-- A frame needs 8 bytes in the READ shape, and 9 in the ACK9 shape (R142). -/
theorem CMode.need_frame (sh : Shape) : CMode.need .frame sh = if sh = .read then 8 else 9 := by
  cases sh <;> rfl

/-- With the collector idle an await step is its entry, and the poll comes later (R142, R143). -/
theorem seqAwait_enters {s : State} (hc : s.cmode = .idle) (st : SeqStep) :
    seqAwait st (awaitEntry st) s = .next (awaitEntry st s) := seqAwait_of_idle hc ..

end Sys2Proof.Machine

namespace Sys2Proof

open Machine (runAwait runAwait_enters seqAwait_enters)

/-- Settles O23: seven entries at their steps, four through the AWAIT rows. -/
theorem awaitEntry : Obligations.AwaitEntry := by
  intro s entered
  refine ⟨fun hc => ?steps, fun h => runAwait_enters h, fun h => runAwait_enters h,
    fun h => runAwait_enters h, fun h => ?frame⟩
  case steps =>
    have row := seqAwait_enters hc
    exact ⟨row (.hs .await), row (.ld .announceAwait), row (.ld .uploadAwait), row (.ld .execAwait),
      row (.rd .await), row (.wr .await), row (.er .await)⟩
  case frame =>
    have hx : Machine.exec .awaitFrame s = runAwait .frame s := rfl
    rw [hx, runAwait_enters h, Machine.State.enterAwait, Machine.CMode.need_frame]

end Sys2Proof

namespace Sys2Proof.Machine

/-! ## A poll without a byte -/

theorem collect_err {s : State} (ha : s.ans.poll = .err) :
    collect s = failAwait .readFail { s with hist := s.hist ++ [.poll .err] } := by
  rw [collect, pollCall_err ha]
  rfl

/-- NoData at or behind the deadline ends the await with its mode's timeout (R143). -/
theorem collect_timeout {s : State} (ha : s.ans.poll = .noData) (hq : s.rxq = [])
    (ht : s.ctimeout ≤ s.now - s.t0) :
    collect s = failAwait s.cmode.timeoutCause { s with hist := s.hist ++ [.poll .noData] } := by
  rw [collect, pollCall_noData ha hq]
  exact if_pos ht

/-- NoData before the deadline is not even recorded (R143). -/
theorem collect_waits {s : State} (ha : s.ans.poll = .noData) (hq : s.rxq = [])
    (ht : s.now - s.t0 < s.ctimeout) : collect s = .hold s := by
  rw [collect, pollCall_noData ha hq]
  exact if_neg (Nat.not_le_of_lt ht)

theorem collect_illegal {s : State} (h : pollCall s = .illegal) :
    collect s = .refuse .pollAnswerIllegal := by
  rw [collect, h]

/-- The four AWAIT rows: each runs the collector in its mode, whose timeout has kind 2 and the mode's own code
(R143, R151, R243). -/
theorem exec_awaitRow (i : Instr) (m : CMode) (code : Nat) (c : Cause)
    (h : (i, m, code, c) ∈ [(Instr.awaitEq, CMode.eq, 1, Cause.timeoutEq), (.awaitAck, .ack, 2, .timeoutAck),
      (.awaitCount, .count, 3, .timeoutCount), (.awaitFrame, .frame, 4, .timeoutFrame)]) :
    (∀ s, exec i s = runAwait m s) ∧ m.timeoutCause = c ∧ c.kind.code.toNat = 2 ∧ c.code.toNat = code := by
  simp only [List.mem_cons, Prod.mk.injEq, List.not_mem_nil, or_false] at h
  rcases h with ⟨rfl, rfl, rfl, rfl⟩ | ⟨rfl, rfl, rfl, rfl⟩ | ⟨rfl, rfl, rfl, rfl⟩ | ⟨rfl, rfl, rfl, rfl⟩ <;>
    exact ⟨fun _ => rfl, rfl, rfl, rfl⟩

/-- The stage numbers of the seven await steps (R191, R242). -/
theorem awaitStep_stage (op : Op) : ∀ p ∈ [(SeqStep.hs .await, 3), (.ld .announceAwait, 4),
    (.ld .uploadAwait, 5), (.ld .execAwait, 6), (.rd .await, 7), (.wr .await, 8), (.er .await, 9)],
    (stageOf op p.1).toNat = p.2 := by
  simp only [List.forall_mem_cons, List.not_mem_nil, false_imp_iff, implies_true, and_true]
  exact ⟨rfl, rfl, rfl, rfl, rfl, rfl, rfl⟩

/-- Settles O27: what the collect step does of each answer, settled at the step where the await runs. -/
theorem collectWithoutByte : Obligations.CollectWithoutByte := by
  intro s i m code c hi hm p hp hs
  obtain ⟨hx, hcause, hkind, hcode⟩ := exec_awaitRow i m code c hi
  have hstage := awaitStep_stage s.op p hp
  have hrun : exec i s = (collect s).settle p.1 (State.finishAwait p.1) := by
    rw [hx, runAwait, if_pos hm, hs]
  rw [hrun, ← hstage]
  refine ⟨fun ha => ?err, fun ha hq ht => ?timeout, fun ha hq ht => ?waits, fun ha hq => ?queued,
    fun ha hq => ?empty⟩
  case err =>
    rw [collect_err ha]
    exact failAwait_settle ..
  case timeout =>
    rw [collect_timeout ha hq ht, hm, hcause, failAwait_settle, hkind, hcode]
  case waits => rw [collect_waits ha hq ht, Act.settle_hold]
  case queued => rw [collect_illegal (pollCall_noData_illegal ha hq), Act.settle_refuse]
  case empty => rw [collect_illegal (pollCall_byte_illegal ha hq), Act.settle_refuse]

end Sys2Proof.Machine
end

section
/-!
SUPPORT. The law of CHUNK_SPLIT (R160, R161) and the steps of ERASE (R166, R205): O35 and O41.
-/

namespace Sys2Proof.Machine

/-! ## ERASE -/

@[simp] theorem length_eraseBody (s : State) : s.eraseBody.length = 8 := by
  unfold State.eraseBody
  split_ifs <;> simp

/-- Settles O35: ER_BUILD stores the body that its target selects, and ER_COMMIT has one case. -/
theorem eraseDispatch : Obligations.EraseDispatch := by
  refine fun s => ⟨?build, rfl⟩
  obtain ⟨u, hu, hb⟩ := stepAct_erBuild_built s
  have hx : exec (.seqErase .build) s = .next (u.goto (.er .settle)) := congrArg (seqStep (.er .build)) hu
  have hlen := length_eraseBody s
  refine ⟨_, hx, rfl, hb.frame, fun x h9 => hb.rest x (by omega), ?frame⟩
  have he := hb.eq
  rw [hlen] at he
  exact congrArg (State.goto (.er .settle)) he

/-! ## CHUNK_SPLIT -/

/-- Exactly the chunks that start inside the transfer are counted (R160). -/
theorem lt_chunkCount_iff {n k : Nat} : k < chunkCount n ↔ 512 * k < n := by
  refine ⟨fun h => ?_, lt_chunkCount⟩
  simp only [chunkCount, Config.chunkMax_eq] at h
  omega

@[simp] theorem chunkSplit_length (a n : Nat) : (chunkSplit a n).length = chunkCount n := by
  simp [chunkSplit]

/-- A split has an entry at `k` only where chunk k starts inside the transfer, and it is that chunk (R160). -/
theorem chunkSplit_getElem?_eq_some {a n k : Nat} {c : Nat × Nat} (h : (chunkSplit a n)[k]? = some c) :
    512 * k < n ∧ c = (a + 512 * k, min 512 (n - 512 * k)) := by
  obtain ⟨hk, -⟩ := List.getElem?_eq_some_iff.1 h
  rw [chunkSplit_length] at hk
  rw [chunkSplit_getElem? a hk] at h
  exact ⟨lt_chunkCount_iff.1 hk, (Option.some.inj h).symm⟩

/-- The first `m` chunks cover the first `512 * m` bytes, as far as the transfer goes (R160, R161). -/
theorem sum_chunkLengths (n m : Nat) :
    ((List.range m).map fun k => min 512 (n - 512 * k)).sum = min n (512 * m) := by
  induction m with
  | zero => simp
  | succ m ih =>
    rw [List.range_succ, List.map_append, List.sum_append, ih, List.map_singleton, List.sum_singleton]
    omega

/-- All chunks together cover the transfer (R161). -/
theorem chunkSplit_sum (a n : Nat) : ((chunkSplit a n).map Prod.snd).sum = n := by
  have hall : ¬ 512 * chunkCount n < n := fun h => Nat.lt_irrefl _ (lt_chunkCount_iff.2 h)
  rw [chunkSplit, List.map_map]
  exact (sum_chunkLengths n (chunkCount n)).trans (by omega)

/-- Settles O41: an entry is its chunk, and a chunk with another behind it is full because that one starts inside. -/
theorem chunkSplitCoversRegion : Obligations.ChunkSplitCoversRegion := by
  refine fun a n => ⟨chunkSplit_length a n, chunkSplit_sum a n, fun k c hc => ?entry⟩
  obtain ⟨hk, rfl⟩ := chunkSplit_getElem?_eq_some hc
  refine ⟨rfl, ?nonempty, ?inside, fun hnext => ?full⟩
  case nonempty =>
    simp only
    omega
  case inside =>
    simp only
    omega
  case full =>
    rw [chunkSplit_length, lt_chunkCount_iff] at hnext
    simp only
    omega

end Sys2Proof.Machine
end

section
/-!
SUPPORT. The sequencer's single steps, its order and its end: the region check and the handshake's line steps (R194,
R196), the successor table (R207), teardown (R206, R246), and what a session that ended well has done (R211): O30, O31,
O46, O53, O56, O57.
-/

namespace Sys2Proof.Machine

/-! ## RANGE -/

/-- SEQ_RANGE is the action of its step. -/
theorem exec_seqRange (s : State) : exec .seqRange s = seqStep .range (stepAct .range s) := rfl

/-- A READ or WRITE that reaches above the flash is rejected (R194). -/
theorem stepAct_range_region {s : State} (hop : s.op = .read ∨ s.op = .write)
    (h : 0x4000 < s.addr0.toNat + s.len0.toNat) : stepAct .range s = .fail .region s := if_pos ⟨hop, h⟩

/-- An ERASE of a target above the flash is rejected (R194). -/
theorem stepAct_range_sector {s : State} (hop : s.op = .erase) (h : 0x4000 ≤ s.addr0.toNat) :
    stepAct .range s = .fail .sector s :=
  (if_neg (by simp [hop])).trans (if_pos ⟨hop, h⟩)

/-- Every request whose region lies in the flash passes (R194). -/
theorem stepAct_range_ok {s : State} (h : InRegion s) : stepAct .range s = .ok s := by
  obtain ⟨hregion, hsector⟩ := h
  exact (if_neg fun hx => Nat.not_lt.2 (hregion hx.1) hx.2).trans
    (if_neg fun hx => Nat.not_le.2 (hsector hx.1) hx.2)

theorem exec_seqRange_ok {s : State} (h : InRegion s) :
    exec .seqRange s = .next { s with step := .openPort } := by
  rw [exec_seqRange, stepAct_range_ok h]
  rfl

/-- Settles O30, by the outcome of the region check. -/
theorem rangeCheck : Obligations.RangeCheck := by
  refine fun s => ⟨fun hop h => ?region, fun hop h => ?sector, fun hop h => ?transfer, fun hop h => ?erase,
    fun hop => ?connectOnly⟩
  case region =>
    rw [exec_seqRange, stepAct_range_region hop h]
    exact Act.settle_fail_numbers ..
  case sector =>
    rw [exec_seqRange, stepAct_range_sector hop h]
    exact Act.settle_fail_numbers ..
  case transfer => exact exec_seqRange_ok ⟨fun _ => h, fun he => by simp [he] at hop⟩
  case erase => exact exec_seqRange_ok ⟨fun hx => by simp [hop] at hx, fun _ => h⟩
  case connectOnly => exact exec_seqRange_ok ⟨fun hx => by simp [hop] at hx, fun hx => by simp [hop] at hx⟩

/-! ## The handshake's line and flush steps -/

/-- HS_FLUSH empties the queue and makes the session Connected; the successor table says where it goes on (R196,
R207). -/
theorem exec_hsFlush (s : State) :
    exec (.seqHandshake .flush) s = .next { s with
      rxq := [], hist := s.hist ++ [.flush], session := .connected
      step := if s.op = .connectOnly then .td .close else .ld .announceTx } := rfl

/-- Settles O31: the two line steps have one case, and HS_FLUSH goes on by the operation. -/
theorem handshakeSteps : Obligations.HandshakeSteps := by
  refine fun s => ⟨rfl, rfl, fun hop => ?stops, fun hop => ?goesOn⟩
  case stops => rw [exec_hsFlush, if_pos hop]
  case goesOn => rw [exec_hsFlush, if_neg hop]

/-! ## Teardown -/

/-- CLOSE in one equation: the port and the line are released, and a Close is recorded if the port was open (R137). -/
theorem closeCall_eq (s : State) :
    closeCall s = { s with
      portOpen := false, ctlAsserted := s.ctlAsserted && !s.portOpen
      hist := s.hist ++ if s.portOpen then [.close s.ans.closeOk] else [] } := by
  cases h : s.portOpen with
  | true =>
    rw [closeCall_of_open h]
    simp
  | false =>
    rw [closeCall_of_closed h]
    simp only [Bool.not_false, Bool.and_true, Bool.false_eq_true, if_false, List.append_nil]
    rw [← h]

/-- STREAM_CLOSE in one equation (R140). -/
theorem streamCloseCall_eq (s : State) :
    streamCloseCall s = { s with
      streamOpen := false, hist := s.hist ++ if s.streamOpen then [.streamClose] else [] } := by
  cases h : s.streamOpen with
  | true =>
    rw [streamCloseCall_of_open h]
    simp
  | false =>
    rw [streamCloseCall_of_closed h]
    simp only [Bool.false_eq_true, if_false, List.append_nil]
    rw [← h]

/-- What a teardown step leaves, at its successor: the port and then the stream released, and the end of the session
(R206, R207, R250). -/
def teardownNext (x : TdStep) (s : State) : State :=
  match x with
  | .close => { s with
      portOpen := false, ctlAsserted := s.ctlAsserted && !s.portOpen
      hist := s.hist ++ if s.portOpen then [.close s.ans.closeOk] else []
      step := .td .stream }
  | .stream => { s with
      streamOpen := false, hist := s.hist ++ if s.streamOpen then [.streamClose] else []
      step := .td .finish }
  | .finish => s.endSession

/-- The engine in teardown with the collector idle, in every state and whatever the answers (R206). -/
theorem engineStep_teardown {s : State} {x : TdStep} (hs : s.step = .td x) (hc : s.cmode = .idle) :
    engineStep s = .next (teardownNext x s) := by
  rw [engineStep_act (by simp [hs]) hc (by rw [hs]; rfl), hs]
  cases x with
  | close => rw [stepAct, closeCall_eq]; rfl
  | stream => rw [stepAct, streamCloseCall_eq]; rfl
  | finish => rfl

/-- A run whose first move is a teardown step of the engine. -/
theorem run_teardown {s : State} {x : TdStep} (a : Config.Answers) (ms : List Config.Turn) (hs : s.step = .td x)
    (hc : s.cmode = .idle) (hi : s.inputs = .engine a :: ms) (k : Nat) :
    Host.Core.run core (k + 1) s = Host.Core.run core k (teardownNext x { s with inputs := ms, ans := a }) := by
  have hn : s.nextTurn = (.engine a, { s with inputs := ms }) := by rw [State.nextTurn, hi]
  have hstep : step s = .next (teardownNext x { s with inputs := ms, ans := a }) :=
    (step_of_nextTurn hn).trans (engineStep_teardown (s := { s with inputs := ms, ans := a }) hs hc)
  exact run_of_next hstep k

/-- Settles O57: the three steps one after the other. -/
theorem teardownReleasesEverything : Obligations.TeardownReleasesEverything := by
  intro s a b c ms hs hc hi
  have hclose := run_teardown a (.engine b :: .engine c :: ms) hs hc hi 2
  have hstream := hclose.trans (run_teardown (x := .stream) b (.engine c :: ms) (by rfl) (by exact hc) (by rfl) 1)
  have hfinish := hstream.trans (run_teardown (x := .finish) c ms (by rfl) (by exact hc) (by rfl) 0)
  refine ⟨_, hfinish, rfl, rfl, rfl, rfl, rfl, rfl, rfl, fun hp => ?line, rfl, rfl, rfl, rfl, rfl, rfl⟩
  case line =>
    have hline : (s.ctlAsserted && !s.portOpen) = false := by simp [hp]
    exact hline

/-- In a state of the invariant the engine does nothing outside the working steps but tear down (R192, R206). -/
theorem Inv.engineStep_rests {s : State} (h : Inv s) (hw : s.step.working = false) :
    (s.step = .idle ∧ engineStep s = .next s) ∨
      ∃ x, s.step = .td x ∧ engineStep s = .next (teardownNext x s) := by
  cases hs : s.step with
  | idle => exact .inl ⟨rfl, engineStep_idle hs⟩
  | td x => exact .inr ⟨x, rfl, engineStep_teardown hs (h.cmode_idle (by rw [hs]; rfl))⟩
  | _ => rw [hs] at hw; cases hw

/-- The calls of a teardown step: a Close, a StreamClose, or none (R137, R140, R206). -/
theorem teardownNext_hist (x : TdStep) (s : State) :
    (teardownNext x s).hist = s.hist ∨ (∃ r, (teardownNext x s).hist = s.hist ++ [.close r]) ∨
      (teardownNext x s).hist = s.hist ++ [.streamClose] := by
  cases x with
  | close => cases h : s.portOpen <;> simp [teardownNext, h]
  | stream => cases h : s.streamOpen <;> simp [teardownNext, h]
  | finish => exact .inl rfl

/-- Settles O56: after a failure no step works (R246), so the engine rests or tears down. -/
theorem failureAbortsTheRest : Obligations.FailureAbortsTheRest := by
  intro s u t a h hf hm hs
  rw [step_of_nextTurn hm] at hs
  obtain ⟨ms, d, rfl⟩ := nextTurn_snd hm
  obtain ⟨-, -, hrest⟩ := h.failure
  have h' : Inv { s with inputs := ms, draws := d, ans := a } := h.of_unread rfl
  rcases h'.engineStep_rests (hrest hf) with ⟨-, e⟩ | ⟨x, -, e⟩ <;> cases e.symm.trans hs
  · exact ⟨hf, rfl, rfl, rfl, rfl, rfl, rfl, rfl, hrest hf, .inl rfl⟩
  · have hhist := teardownNext_hist x { s with inputs := ms, draws := d, ans := a }
    cases x <;> exact ⟨hf, rfl, rfl, rfl, rfl, rfl, rfl, rfl, rfl, hhist⟩

/-! ## The successor table -/

/-- The successor of a step is one that R207's table lists, but for OP_DISPATCH with CONNECT_ONLY, which has none
(R200). -/
theorem successor_mem_nexts {st : SeqStep} {u : State} (h : st = .opDispatch → u.op ≠ .connectOnly) :
    successor u st ∈ st.nexts := by
  cases st with
  | opDispatch =>
    have hop := h rfl
    unfold successor
    cases ho : u.op <;> simp_all [SeqStep.nexts]
  | hs x => cases x <;> unfold successor <;> split_ifs <;> simp [SeqStep.nexts]
  | rd x => cases x <;> unfold successor <;> split_ifs <;> simp [SeqStep.nexts]
  | wr x => cases x <;> unfold successor <;> split_ifs <;> simp [SeqStep.nexts]
  | ld x | er x | td x => cases x <;> simp [successor, SeqStep.nexts]
  | idle | range | openPort => simp [successor, SeqStep.nexts]

theorem teardownNext_step_mem_nexts (x : TdStep) (s : State) :
    (teardownNext x s).step ∈ (SeqStep.td x).nexts := by
  cases x <;> exact List.mem_singleton_self _

/-- A working step holds or enters its await, goes on by the table, or takes the session's first failure (R142, R207,
R246). -/
theorem Inv.engineStep_works {s t : State} (h : Inv s) (hw : s.step.working = true) (he : engineStep s = .next t) :
    t.step = s.step ∨ t.step ∈ s.step.nexts ∨ (t.step = .td .close ∧ s.failed = false ∧ t.failed = true) := by
  obtain ⟨-, -, -, hfailed, -⟩ := h.working_facts hw
  have hop := (engineStep_sameRequest he).op
  rcases engineStep_cases he with
    ⟨hi, -⟩ | ⟨-, m, sh, budget, -, -, -, e⟩ | ⟨hfin, -⟩ | ⟨u, hu, rfl | ⟨-, rfl⟩ | ⟨c, rfl⟩⟩
  · rw [hi] at hw
    cases hw
  · rw [e]
    exact .inl rfl
  · rw [hfin] at hw
    cases hw
  · exact .inl hu.step
  · refine .inr (.inl (successor_mem_nexts fun hd => ?_))
    have hserves := (h.atStep hd rfl).stage
    exact fun hx => hserves (hop.symm.trans hx)
  · exact .inr (.inr ⟨rfl, hfailed, rfl⟩)

/-- Settles O53: a working step by `Inv.engineStep_works`, teardown by its own steps, and IDLE stays. -/
theorem engineFollowsSuccessorTable : Obligations.EngineFollowsSuccessorTable := by
  intro s u t a h hm hs
  rw [step_of_nextTurn hm] at hs
  obtain ⟨ms, d, rfl⟩ := nextTurn_snd hm
  have h' : Inv { s with inputs := ms, draws := d, ans := a } := h.of_unread rfl
  cases hw : s.step.working with
  | true =>
    have hi : s.step ≠ .idle := fun e => by rw [e] at hw; cases hw
    exact (h'.engineStep_works hw hs).imp_right (.imp_left (⟨hi, ·⟩))
  | false =>
    rcases h'.engineStep_rests hw with ⟨-, e⟩ | ⟨x, hx, e⟩ <;> cases e.symm.trans hs
    · exact .inl rfl
    · have hst : s.step = .td x := hx
      rw [hst]
      exact .inr (.inl ⟨by simp, teardownNext_step_mem_nexts x _⟩)

/-! ## Sessions that ended well -/

/-- A run keeps the invariant. -/
theorem Inv.run {k : Nat} : ∀ {s t : State}, Inv s → Host.Core.run core k s = .next t → Inv t := by
  induction k with
  | zero =>
    intro s t h hr
    cases hr
    exact h
  | succ k ih =>
    intro s t h hr
    obtain ⟨v, hv, hr⟩ := run_succ_next hr
    exact ih (stepKeepsInvariant s v h hv) hr

/-- What the invariant says of a session that ended with DONE and OK (R211, R284). -/
theorem Inv.sessionCounts {s : State} (h : Inv s) (hd : s.done = true) (hok : s.ok = true) : SessionCounts s := by
  obtain ⟨-, -, hended⟩ := h.flags
  obtain ⟨-, hfailed⟩ := hended.1 hok
  have herr : s.err = 0 := by
    have hiff := h.failure.1
    rw [hfailed] at hiff
    simpa using hiff
  have hcounts : SuccessCounts s := (successOk_iff s).1 h.success hfailed (.inr hd)
  have hsink : s.op = .read → s.sink.length = s.xfer.toNat := fun hop =>
    h.sink hop (.inr hd) (by rw [herr]; exact (errWord_ne_zero .sinkFail 7).symm)
  unfold SuccessCounts at hcounts
  unfold SessionCounts
  cases hop : s.op <;> rw [hop] at hcounts
  case connectOnly | erase => exact hcounts
  case read =>
    obtain ⟨hxfer, hchunks, hcalls⟩ := hcounts
    exact ⟨hcalls, hchunks, hxfer, (hsink hop).trans (congrArg BitVec.toNat hxfer)⟩
  case write =>
    obtain ⟨hxfer, hchunks, hcalls⟩ := hcounts
    exact ⟨hcalls, hchunks, hxfer⟩

/-- Settles O46: the invariant has the counts, and a run from power-on keeps it. -/
theorem successfulSessionCounts : Obligations.SuccessfulSessionCounts := by
  refine ⟨fun s h hd hok => h.sessionCounts hd hok, fun c ms k t hr hd hok => ?run⟩
  have hstart : Inv { State.resetWith c with inputs := ms } := inv_of_reset rfl
  exact (hstart.run hr).sessionCounts hd hok

end Sys2Proof.Machine
end

section
/-!
SUPPORT. Who writes STATUS.DONE, and so drives the interrupt output (R28, R253, R272): of the engine's actions only
FINISH, of the other agents START and the reset input: O60.
-/

namespace Sys2Proof.Machine

/-! ## The actions that leave DONE alone -/

/-- An action that leaves DONE as it found it, however it ends. -/
def KeepsDone (k : State → Act) : Prop := ∀ s, (k s).Leaves fun u => u.done = s.done

theorem KeepsDone.andThen {k l : State → Act} (hk : KeepsDone k) (hl : KeepsDone l) :
    KeepsDone fun s => (k s).andThen l :=
  fun s => (hk s).andThen fun u (hu : u.done = s.done) => hu ▸ hl u

theorem storeTx_keepsDone (a : Nat) (bs : List Byte) : KeepsDone (storeTx a bs) := by
  intro s
  unfold storeTx
  split_ifs
  · exact rfl
  · trivial

theorem stampTx_keepsDone (n : Nat) : KeepsDone (stampTx n) := by
  intro s
  unfold stampTx
  split_ifs
  · exact rfl
  · trivial

theorem buildTx_keepsDone (body : List Byte) : KeepsDone (buildTx body) :=
  (storeTx_keepsDone 0 body).andThen (stampTx_keepsDone _)

theorem buildWrite_keepsDone (a : Word) (d : List Byte) : KeepsDone (buildWrite a d) := fun s =>
  ((KeepsDone.andThen (storeTx_keepsDone 0 (Codec.writeHeader s.cfg a)) (storeTx_keepsDone _ d)).andThen
    (stampTx_keepsDone _)) s

theorem txSend_keepsDone (src : TxSrc) : KeepsDone (txSend src) := by
  intro s
  rcases txSend_cases src s with ⟨-, -, h⟩ | ⟨-, h⟩ <;> rw [h]
  · trivial
  rcases txWrite_cases (s.txBytes src) s with
    ⟨-, h⟩ | ⟨-, ⟨c, -, -, h⟩ | ⟨-, h⟩ | ⟨c, -, -, h⟩ | ⟨-, h⟩⟩ <;> rw [h]
  · trivial
  · trivial
  all_goals exact rfl

theorem openCall_keepsDone : KeepsDone openCall := by
  intro s
  rcases openCall_cases s with ⟨-, h⟩ | ⟨-, h⟩ <;> rw [h] <;> exact rfl

theorem waitCall_keepsDone (t : WaitArg) : KeepsDone (waitCall t) := by
  intro s
  rcases waitCall_cases t s with ⟨-, h⟩ | ⟨-, -, h⟩ | ⟨-, -, h⟩ <;> rw [h] <;> exact rfl

theorem sinkCall_keepsDone : KeepsDone sinkCall := by
  intro s
  rcases sinkCall_cases s with ⟨-, h⟩ | ⟨-, -, ⟨-, h⟩ | ⟨-, h⟩⟩ <;> rw [h]
  · trivial
  all_goals exact rfl

theorem srcStep_keepsDone : KeepsDone srcStep := by
  intro s
  rcases srcStep_cases s with ⟨b, -, -, h⟩ | ⟨b, -, -, h⟩ | ⟨-, h⟩ | ⟨-, h⟩ <;> rw [h]
  · exact rfl
  · trivial
  all_goals exact rfl

/-! ### The collector -/

theorem validateRx_keepsDone (n : Nat) : KeepsDone (validateRx n) := by
  intro s
  unfold validateRx
  split_ifs
  · trivial
  · trivial
  all_goals exact rfl

theorem checkLength_keepsDone : KeepsDone checkLength := by
  intro s
  unfold checkLength
  simp only
  split_ifs <;> exact rfl

theorem checkEnd_keepsDone : KeepsDone checkEnd := by
  intro s
  unfold checkEnd
  split_ifs
  · exact (validateRx_keepsDone _ s).andThen fun _ hu => hu
  · exact rfl

theorem acceptFrame_keepsDone (b : Byte) : KeepsDone (acceptFrame b) := by
  intro s
  unfold acceptFrame
  simp only
  split_ifs
  · trivial
  · exact rfl
  · exact rfl
  · exact (checkLength_keepsDone.andThen checkEnd_keepsDone)
      { s with rxbuf := Memory.write s.cidx b s.rxbuf, cidx := s.cidx + 1 }

theorem accept_keepsDone (b : Byte) : KeepsDone (accept b) := by
  intro s
  cases hm : s.cmode with
  | idle => unfold accept; rw [hm]; exact rfl
  | eq => rw [accept_eq hm, acceptEq]; split_ifs <;> exact rfl
  | ack => rw [accept_ack hm, acceptAck]; split_ifs <;> exact rfl
  | count => rw [accept_count hm, acceptCount]; split_ifs <;> exact rfl
  | frame => rw [accept_frame hm]; exact acceptFrame_keepsDone b s

theorem collect_keepsDone : KeepsDone collect := by
  intro s
  rcases collect_cases s with h | ⟨-, h⟩ | ⟨-, h⟩ | ⟨b, q, -, h⟩ | h <;> rw [h]
  case inr.inr.inr.inl => exact accept_keepsDone b { s with hist := s.hist ++ [.poll (.byte b)], rxq := q }
  case inr.inr.inr.inr => trivial
  all_goals exact rfl

/-! ### The steps -/

/-- Of the steps' actions only FINISH writes DONE (R206, R250). -/
theorem stepAct_keepsDone {st : SeqStep} (hf : st ≠ .td .finish) : KeepsDone (stepAct st) := by
  intro s
  cases st with
  | idle => exact rfl
  | range => rcases stepAct_range_cases s with h | h | ⟨-, -, h⟩ <;> rw [h] <;> exact rfl
  | openPort => exact openCall_keepsDone s
  | opDispatch =>
    rcases stepAct_dispatch_cases s with ⟨-, h⟩ | ⟨-, h⟩ | ⟨-, h⟩ | ⟨-, h⟩ <;> rw [h]
    · trivial
    all_goals exact rfl
  | hs x =>
    cases x with
    | powerWait | settle => exact waitCall_keepsDone _ s
    | train => exact txSend_keepsDone _ s
    | assert | release | await | flush => exact rfl
  | ld x =>
    cases x with
    | announceTx | uploadTx | execTx => exact txSend_keepsDone _ s
    | preUpload | preExec => exact waitCall_keepsDone _ s
    | final => exact (waitCall_keepsDone _ s).andThen fun _ hu => hu
    | announceAwait | uploadAwait | execAwait => exact rfl
  | rd x =>
    cases x with
    | next =>
      rcases stepAct_rdNext_cases s with ⟨-, h⟩ | ⟨-, h⟩ <;> rw [h]
      · exact rfl
      · exact buildTx_keepsDone _ { s with chunkLen := s.nextChunkLen }
    | settle => exact waitCall_keepsDone _ s
    | tx => exact txSend_keepsDone _ s
    | await => exact rfl
    | commit => exact (sinkCall_keepsDone s).andThen fun _ hu => hu
  | wr x =>
    cases x with
    | next => rcases stepAct_wrNext_cases s with ⟨-, h⟩ | ⟨-, h⟩ <;> rw [h] <;> exact rfl
    | src => exact srcStep_keepsDone s
    | build => exact buildWrite_keepsDone _ _ s
    | settle => exact waitCall_keepsDone _ s
    | tx => exact txSend_keepsDone _ s
    | await | commit => exact rfl
  | er x =>
    cases x with
    | build => rcases stepAct_erBuild_cases s with ⟨-, h⟩ | ⟨-, h⟩ <;> rw [h] <;> exact buildTx_keepsDone _ s
    | settle => exact waitCall_keepsDone _ s
    | tx => exact txSend_keepsDone _ s
    | await | commit => exact rfl
  | td x =>
    cases x with
    | close => rw [stepAct, closeCall_eq]; exact rfl
    | stream => rw [stepAct, streamCloseCall_eq]; exact rfl
    | finish => exact absurd rfl hf

/-! ## The moves -/

theorem KeepsDone.settle {k : State → Act} (hk : KeepsDone k) {st : SeqStep} {f : State → State}
    (hf : ∀ u, (f u).done = u.done) {s t : State} (h : (k s).settle st f = .next t) : t.done = s.done := by
  have hs := hk s
  rcases Act.settle_next h with ⟨u, e, rfl⟩ | ⟨u, e, rfl⟩ | ⟨c, u, e, rfl⟩ <;> rw [e] at hs
  · exact (hf u).trans hs
  · exact hs
  · exact hs

@[simp] theorem State.finishAwait_done (st : SeqStep) (u : State) : (u.finishAwait st).done = u.done := by
  unfold State.finishAwait
  split
  · rfl
  · split_ifs <;> rfl

/-- An engine step raises the interrupt at FINISH or leaves it (R206, R253). -/
theorem engineStep_irq {s t : State} (h : engineStep s = .next t) :
    t.irq = s.irq ∨ (s.step = .td .finish ∧ t.irq = true) := by
  rcases engineStep_shape s with ⟨-, e⟩ | ⟨-, ha, e⟩ | ⟨-, hc, -, e⟩ | ⟨-, -, e⟩
  · cases e.symm.trans h
    exact .inl rfl
  · cases e.symm.trans h
    obtain ⟨m, sh, budget, -, -, -, entered⟩ := awaitEntry_entered ha
    rw [entered]
    exact .inl rfl
  · by_cases hf : s.step = .td .finish
    · cases (engineStep_teardown hf hc).symm.trans h
      exact .inr ⟨hf, rfl⟩
    · exact .inl ((stepAct_keepsDone hf).settle (f := State.advance s.step) (fun _ => rfl) (e.symm.trans h))
  · exact .inl (collect_keepsDone.settle (State.finishAwait_done s.step) (e.symm.trans h))

/-- A host write clears the interrupt by an accepted START or leaves it (R27, R193, R253). -/
theorem hostWriteStep_irq {n : Nat} {v : Word} {s t : State} (h : hostWriteStep n v s = .next t) :
    t.irq = s.irq ∨ (t.irq = false ∧ n = 4 ∧ v.getLsbD 0 = true ∧ s.busy = false) := by
  rw [hostWriteStep_eq] at h
  split_ifs at h with hstart <;> cases h
  · cases hb : s.busy with
    | true =>
      rw [State.start_of_busy hb]
      exact .inl rfl
    | false =>
      rw [State.start_of_idle hb]
      exact .inr ⟨rfl, hstart.1, hstart.2, rfl⟩
  · unfold State.hostStore
    split_ifs <;> exact .inl rfl

/-- Every move leaves the interrupt, raises it at FINISH, or clears it by START or reset (R253, R272). -/
theorem runTurn_irq {m : Config.Turn} {s t : State} (h : runTurn m s = .next t) :
    t.irq = s.irq ∨
    (t.irq = true ∧ (∃ a, m = .engine a) ∧ s.step = .td .finish) ∨
    (t.irq = false ∧
      (m = .rst ∨ ∃ v, m = .hostWrite 4 v ∧ v.getLsbD 0 = true ∧ s.busy = false)) := by
  cases m with
  | engine a =>
    rcases engineStep_irq h with hkeep | ⟨hf, hrise⟩
    · exact .inl hkeep
    · exact .inr (.inl ⟨hrise, ⟨a, rfl⟩, hf⟩)
  | hostWrite n v =>
    rcases hostWriteStep_irq h with hkeep | ⟨hfall, rfl, hv, hb⟩
    · exact .inl hkeep
    · exact .inr (.inr ⟨hfall, .inr ⟨v, rfl, hv, hb⟩⟩)
  | peer bs =>
    obtain ⟨x, hx⟩ := peer_receives s bs
    cases hx.symm.trans h
    exact .inl rfl
  | hostRead n | clock =>
    cases h
    exact .inl rfl
  | rst =>
    cases h
    exact .inr (.inr ⟨rfl, .inl rfl⟩)

/-- Settles O60, by what the move does to the interrupt. -/
theorem irqRisesAtFinish : Obligations.IrqRisesAtFinish := by
  intro s u t m hm hs
  rw [step_of_nextTurn hm] at hs
  obtain ⟨ms, d, rfl⟩ := nextTurn_snd hm
  rcases runTurn_irq hs with hkeep | ⟨hrise, hfinish⟩ | ⟨hfall, hcause⟩
  · have hsame : t.irq = s.irq := hkeep
    exact ⟨fun h0 h1 => by simp [hsame, h0] at h1, fun h1 h0 => by simp [hsame, h1] at h0⟩
  · exact ⟨fun _ _ => hfinish, fun _ h0 => by simp [hrise] at h0⟩
  · exact ⟨fun _ h1 => by simp [hfall] at h1, fun _ _ => hcause⟩

end Sys2Proof.Machine
end
